-- ==== Sys2Proof/Word.lean ====
section
/-! DEFINITION. The word types of the DC412: a byte, a 16-bit statistic counter, and the saturating step every
statistic counter takes (00_scope, section 4, Counters). -/

namespace Sys2Proof

/-- One byte of host memory or of a field frame. -/
abbrev Byte := BitVec 8

/-- A 16-bit statistic counter (00_scope, section 4, Counters). -/
abbrev Counter := BitVec 16

/-- One more, staying at the largest value of the width: 65 535 for a statistic counter, 255 for an overflow count
(00_scope, section 4, Counters). -/
def satInc {w : Nat} (c : BitVec w) : BitVec w :=
  if c = BitVec.allOnes w then c else c + 1

end Sys2Proof
end

