-- ==== Sys2Proof/Config.lean ====
section
/-! DEFINITION. What is fixed for the machine: the regions of the exchange area (Table 10-1), and the free values
the manual leaves open. -/

namespace Sys2Proof

/-- The nine regions of the exchange area, in the order of Table 10-1. -/
inductive Region
  | config
  | postingA
  | postingB
  | noticeA
  | noticeB
  | units
  | workers
  | permits
  | orders
deriving DecidableEq, Repr

namespace Config

/-- Whether a counter write that RESET or power-on abandons has reached the exchange area. R152: "The record then holds
either the value before the write or the value the write carried, depending on whether the write reached the exchange
area before the RESET." The manual gives no rule for which, so nothing constrains this value (log 8); it is applied to
the number of free values drawn so far. -/
opaque abandonedWriteLands : Nat → Bool

end Config

end Sys2Proof
end

