-- ==== Sys2Proof/Syntax.lean ====
section
/-! DEFINITION. The commands the DC412 takes: one constructor of Instr for each row of spec/opcode_table.json. -/

namespace Sys2Proof

/-- A channel, its port and its site share one number, 0 to 3 (00_scope, section 1.2). -/
abbrev Chan := Fin 4
/-- Index of a unit context and unit record, 0 to 95 (R46). -/
abbrev UnitIx := Fin 96
/-- Index of a worker context and worker record, 0 to 191 (R154). -/
abbrev WorkerIx := Fin 192
/-- Index of a permit context and permit record, 0 to 63 (R109). -/
abbrev PermitIx := Fin 64
/-- Index of an order context and order record, 0 to 255 (R91). -/
abbrev OrderIx := Fin 256

/-- The control registers a write without a command can go to: XCTL (R176) and NOTE (Table 11-12). -/
inductive ControlRegister
  | xctl
  | note
deriving DecidableEq, Repr

/-- Which exchange-area access a BUS_ACCESS_TIMEOUT speaks of (R186, log 7). -/
inductive BusAccess
  /-- The access outstanding now, between two steps: its region and whether it is a write. -/
  | now (region : Region) (isWrite : Bool)
  /-- An access of the steps to come: the one before which `skip` accesses complete, counted from the last one already
  announced in this way. -/
  | ahead (skip : Nat)
deriving DecidableEq, Repr

/-- The commands, one for each row of the table of operations and events. A posting-page verb has no operand, because
its entry is read from the posting page (R182). `stores` lists the bytes the server has stored in host memory since its
last command that carried such a list (log 3). -/
inductive Instr
  /-- POWER_ON (R180); the carrier level each of the four modems presents (R44). -/
  | powerOn (carrier0 carrier1 carrier2 carrier3 : Bool)
  /-- START (R176 to R178). -/
  | start (stores : List Host.Cell)
  /-- HALT (R176, R179). -/
  | halt
  /-- RESET (R176, R180). -/
  | reset
  /-- REGISTER_WRITE_IGNORED (R176, Table 11-12): the register and the value written, which carries no command. -/
  | registerWriteIgnored (register : ControlRegister) (value : BitVec 32) (stores : List Host.Cell)
  /-- XBASE_WRITE (R174): the value written. -/
  | xbaseWrite (value : BitVec 32)
  /-- POST_HANDOVER (R181): the value written to POST. -/
  | postHandover (value : BitVec 32) (stores : List Host.Cell)
  /-- TAKE (R183). -/
  | take
  /-- NOTE_READ (R185). -/
  | noteRead
  /-- UNIT_REGISTER (R50). -/
  | unitRegister
  /-- UNIT_RELEASE (R51). -/
  | unitRelease
  /-- UNIT_RESYNC (R52). -/
  | unitResync
  /-- UNIT_REKEY (R53, R151). -/
  | unitRekey
  /-- WORKER_ON (R157). -/
  | workerOn
  /-- WORKER_OFF (R158). -/
  | workerOff
  /-- ALARM_ACK (R165). -/
  | alarmAck
  /-- ALARM_CLEAR (R167). -/
  | alarmClear
  /-- ORDER_POST (R94). -/
  | orderPost
  /-- ORDER_WITHDRAW (R101). -/
  | orderWithdraw
  /-- BULLETIN (R104). -/
  | bulletin
  /-- PERMIT_ISSUE (R113). -/
  | permitIssue
  /-- PERMIT_CANCEL (R127). -/
  | permitCancel
  /-- PERMIT_SURRENDER_LOCAL (R124). -/
  | permitSurrenderLocal
  /-- PERMIT_ACCEPT_SURRENDER (R125). -/
  | permitAcceptSurrender
  /-- PERMIT_REFUSE_SURRENDER (R126). -/
  | permitRefuseSurrender
  /-- CHANNEL_SET (R37). -/
  | channelSet
  /-- CHANNEL_ENABLE (R38). -/
  | channelEnable
  /-- CHANNEL_DISABLE (R39). -/
  | channelDisable
  /-- CHANNEL_RESET (R40). -/
  | channelReset
  /-- BAD_VERB (R182). -/
  | badVerb
  /-- CARRIER_UP (R32). -/
  | carrierUp (chan : Chan)
  /-- CARRIER_DOWN (R32). -/
  | carrierDown (chan : Chan)
  /-- FRAME_RECEIVED (R34): the bytes the modem delivers. -/
  | frameReceived (chan : Chan) (frame : List Byte)
  /-- RECEIVE_CHECKS (R6 to R9). -/
  | receiveChecks (chan : Chan)
  /-- TX_DONE (R30). -/
  | txDone (chan : Chan)
  /-- MODEM_ALERT (R35). -/
  | modemAlert (chan : Chan)
  /-- CREDIT_SLOT_EXPIRY (R23). -/
  | creditSlotExpiry (chan : Chan)
  /-- TX_DONE_WATCHDOG_EXPIRY (R31). -/
  | txDoneWatchdogExpiry (chan : Chan)
  /-- CARRIER_STUCK_EXPIRY (R33). -/
  | carrierStuckExpiry (chan : Chan)
  /-- FRAME_START (R29). -/
  | frameStart (chan : Chan)
  /-- UPLINK_FRAME (R54). -/
  | uplinkFrame (chan : Chan)
  /-- COUNTER_WRITE_BACK_COMPLETE (R150). -/
  | counterWriteBackComplete (unit : UnitIx)
  /-- RETRANSMISSION_TIMER_EXPIRY (R67). -/
  | retransmissionTimerExpiry (unit : UnitIx)
  /-- RESYNC_REPLY_WAIT_EXPIRY (R71). -/
  | resyncReplyWaitExpiry (unit : UnitIx)
  /-- SEARCH_TIMER_PROBE_EXPIRY (R85). -/
  | searchTimerProbeExpiry (unit : UnitIx)
  /-- SEARCH_INTERVAL_EXPIRY (R87). -/
  | searchIntervalExpiry (unit : UnitIx)
  /-- PROMPT_TIME (R159). -/
  | promptTime (worker : WorkerIx)
  /-- DEADLINE (R160). -/
  | deadline (worker : WorkerIx)
  /-- GRACE_EXPIRY (R161). -/
  | graceExpiry (worker : WorkerIx)
  /-- ESCALATION_EXPIRY (R162). -/
  | escalationExpiry (worker : WorkerIx)
  /-- ORDER_EXPIRY (R100). -/
  | orderExpiry (order : OrderIx)
  /-- PERIODIC_STATUS_WRITE (R175). -/
  | periodicStatusWrite
  /-- BUS_ACCESS_TIMEOUT (R186): which access is not completed in 32 us, and whether its second attempt times out too. -/
  | busAccessTimeout (access : BusAccess) (again : Bool)
  /-- HALT_COMPLETE (R179). -/
  | haltComplete
deriving DecidableEq, Repr

end Sys2Proof
end

