-- ==== Sys2Proof/Machine/Bytes.lean ====
section
/-! DEFINITION. Byte order (most significant byte first, 00_scope section 4) and the check computation of R5. -/

namespace Sys2Proof.Machine

/-- The low `n` bytes of a number, most significant first (00_scope, section 4, Byte order). -/
def beBytes : Nat → Nat → List Byte
  | 0, _ => []
  | n + 1, v => beBytes n (v / 256) ++ [BitVec.ofNat 8 v]

/-- The number a field's bytes hold, most significant first (R189). -/
def beNat (bs : List Byte) : Nat :=
  bs.foldl (fun acc b => acc * 256 + b.toNat) 0

/-- One byte holding a number's low 8 bits. -/
def byteOf (v : Nat) : Byte :=
  BitVec.ofNat 8 v

/-- A mark or flag as a number: 1 when set and 0 when clear (Table 11-6 and after). -/
def bit (b : Bool) : Nat :=
  if b then 1 else 0

/-- Byte i of a frame or payload; 0 beyond its end. -/
def byteAt (bs : List Byte) (i : Nat) : Byte := bs.getD i 0

/-- One bit into the check register (R5): compare the register's top bit with the data bit, shift left, and add 1021 hex
modulo 2 when they differed. -/
def checkBit (reg : BitVec 16) (dataBit : Bool) : BitVec 16 :=
  if reg.msb != dataBit then (reg <<< 1) ^^^ 0x1021#16 else reg <<< 1

/-- One byte into the check register, most significant bit first (R5). -/
def checkByte (reg : BitVec 16) (b : Byte) : BitVec 16 :=
  [7, 6, 5, 4, 3, 2, 1, 0].foldl (fun r i => checkBit r (b.getLsbD i)) reg

/-- The check over bytes in transmission order, from FFFF hex, not inverted (R5). -/
def check (bs : List Byte) : BitVec 16 :=
  bs.foldl checkByte 0xFFFF#16

end Sys2Proof.Machine
end

