-- ==== Sys2Proof/Machine/State.lean ====
section
/-! DEFINITION. The state of the DC412: everything Table 1.1 and chapters 1 to 11 give the part, as plain data, with
the queue of waiting commands, and the state after power-on. Fields the model adds for itself say so. -/

namespace Sys2Proof.Machine

/-- Host memory: (address, byte) pairs, addresses strictly rising, no entry equal to what an unlisted address reads as.
The address is the host's own; the exchange area begins at the address in XBASE (R174). -/
abbrev Memory := List Host.Cell

/-! ## Exchange Interface (chapter 10) -/

/-- The part modes of Table 10-2, coded 0 to 4 in this order (Table 11-12). -/
inductive PartMode
  | halted
  | starting
  | running
  | halting
  | faulted
deriving DecidableEq, Repr

/-- The fault code with its detail (R176). -/
inductive FaultInfo
  | none
  | noBase
  | busTimeout (region : Region) (isWrite : Bool)
  | startConflict (later : PermitIx) (worker : WorkerIx) (earlier : PermitIx)
deriving DecidableEq, Repr

/-- Page A or page B, of the posting pages or of the notice pages. -/
inductive Page
  | a
  | b
deriving DecidableEq, Repr

/-- A posting page's state (R181). -/
inductive PageState
  | host
  | part
deriving DecidableEq, Repr

/-- The posting page in progress (R182): the entries it holds, the next one to read, and how many of those taken had an
outcome other than DONE. -/
structure PageRun where
  page : Page
  count : Nat
  next : Nat
  notDone : Nat
deriving DecidableEq, Repr

/-- Where a replaced value came from (R177, Table 11-9). -/
inductive ClampSource
  | config
  | channel (c : Chan)
  | worker (w : WorkerIx)
deriving DecidableEq, Repr

/-- One entry of the clamp log (R177): the source, the setting as its field's offset within the source, the value found
and the value used. -/
structure ClampEntry where
  source : ClampSource
  setting : Nat
  found : Nat
  used : Nat
deriving DecidableEq, Repr

/-- The state of the Exchange Interface. -/
structure Xif where
  /-- Bits 31 to 12 of XBASE (R174). -/
  xbase : BitVec 20
  mode : PartMode
  fault : FaultInfo
  postA : PageState
  postB : PageState
  rejected : Bool
  consuming : Option PageRun
  /-- The page handed over while another is consumed, with its count (R181). -/
  waiting : Option (Page × Nat)
  /-- The FILLING notice page (R183). -/
  filling : Page
  /-- Whether the other notice page is TAKEN; otherwise it is cleared (R183). -/
  otherTaken : Bool
  /-- Notices on the FILLING page (R184). -/
  notices : Nat
  /-- Overflow counts of classes 1 to 8 on the FILLING page (R184). -/
  overflow : Vector (BitVec 8) 8
  /-- Bit c - 1 is the pending bit of class c (R184). -/
  pending : BitVec 8
  /-- Bit c - 1 masks class c (R185, Table 11-8). -/
  mask : BitVec 8
  /-- What the last read of NOTE returned (R185, Table 11-12). -/
  noteData : BitVec 32
  /-- The service clock, in microseconds since START (log 2). -/
  clock : Nat
  clockOn : Bool
  /-- The next second at which the periodic status falls due (R175). -/
  nextPeriodic : Nat
  busRetries : Counter
  /-- MODEL's own (log 7): for each announced timeout, how many accesses complete before it, and whether the second
  attempt times out too. -/
  busPlan : List (Nat × Bool)
  clampLog : List ClampEntry
  clampMissed : BitVec 8
  systemCode : Byte
  /-- The common segment limit (R22). -/
  commonLimit : Nat
deriving DecidableEq, Repr

/-! ## Field frames (chapter 1) -/

/-- The frame kinds of Table 1-2. -/
inductive FrameKind
  | orderSeg
  | orderCancel
  | permitHdr
  | permitStep
  | permitNote
  | prompt
  | alarmNote
  | poll
  | resync
  | reportDown
  | bulletin
  | checkin
  | emergency
  | standdown
  | orderReply
  | readback
  | stepDone
  | surrender
  | pollReply
  | resyncAck
  | reportUp
deriving DecidableEq, Repr

/-- The traffic classes, in rising order of precedence, coded 0 to 3 (Table 11-3). -/
inductive TrafficClass
  | routine
  | order
  | permit
  | safety
deriving DecidableEq, Repr

/-- The kinds of a unit's due set (R49). -/
inductive DueKind
  | resync
  | alarmNote
  | prompt
  | poll
  | report
deriving DecidableEq, Repr

/-- Note codes of PERMIT_NOTE, coded 1 to 9 in this order (Table 1-9, Table 11-3). -/
inductive NoteCode
  | outOfOrder
  | notSent
  | state
  | code
  | replay
  | ahead
  | alarmOpen
  | surrenderRefused
  | cancelled
deriving DecidableEq, Repr

/-- The note an ALARM_NOTE carries for a worker (R14). -/
inductive AlarmNote
  | received
  | acknowledged
deriving DecidableEq, Repr

/-! ## Channel ports (chapter 2) -/

/-- A channel's settings as taken (R17). -/
structure ChannelSettings where
  /-- Rate code: 0 for 4800, 1 for 9600, 2 for 19200 bit/s. -/
  rate : Nat
  preamble : Nat
  tot : Nat
  duty : Nat
  cmax : Nat
  replyWait : Nat
  stuckLimit : Nat
deriving DecidableEq, Repr

/-- Port states, coded 0 to 4 in the order of Table 11-9. -/
inductive PortState
  | off
  | idle
  | transmitting
  | receiving
  | fault
deriving DecidableEq, Repr

/-- An entry of a transmit queue (R25). `ref` is the Unit Link Engine's reference for the message. A bulletin has no
unit (R105). The payload of a kind built from the due set is empty here: the unit's due set supplies it. -/
structure TxEntry where
  kind : FrameKind
  unit : Option UnitIx
  ref : Nat
  attempt : Nat
  payload : List Byte
  /-- The frame is on air and keeps its place (R25). -/
  started : Bool
deriving DecidableEq, Repr

/-- A frame in a receive buffer: its bytes, and whether it has passed the receive checks (R34). -/
structure RxFrame where
  bytes : List Byte
  passed : Bool
deriving DecidableEq, Repr

/-- The two commands of a port to its modem (chapter 2, Figure 2-1). -/
inductive ModemCommand
  | keyAndSend (frame : List Byte)
  | unkey
deriving DecidableEq, Repr

/-- The statistic counters of a port, in the order of R41. -/
inductive PortCounter
  | sent
  | received
  | checkFailures
  | malformed
  | unregistered
  | overruns
  | stuckEvents
  | faults
deriving DecidableEq, Repr

/-- A channel port. Times are on the service clock, in microseconds. -/
structure Port where
  settings : Option ChannelSettings
  state : PortState
  closing : Bool
  /-- The carrier level the modem presents (R44). -/
  carrierPin : Bool
  /-- The carrier indication (R18). -/
  carrier : Bool
  carrierUpAt : Nat
  stuck : Bool
  stuckTimer : Option Nat
  watchdog : Option Nat
  slotTimer : Option Nat
  credit : Int
  acc : Nat
  lmax : Option Nat
  /-- Oldest first. -/
  queue : List TxEntry
  /-- In arrival order. -/
  rx : List RxFrame
  stats : Vector Counter 8
  modemCmd : ModemCommand
deriving DecidableEq, Repr

/-- A frame on an offer list (R64), with the moment it joined. -/
structure OfferItem where
  frame : TxEntry
  moment : Nat
deriving DecidableEq, Repr

/-! ## Unit links (chapters 3, 4 and 8) -/

/-- Reachability, coded 0 to 3 in this order (Table 4-1). -/
inductive Reach
  | unknown
  | reachable
  | searching
  | unreachable
deriving DecidableEq, Repr

/-- How the running search began (Table 4-2). -/
inductive SearchOrigin
  | first
  | lost
  | again
deriving DecidableEq, Repr

/-- Resync pending, coded 0 to 2 in this order (Table 3-1). -/
inductive ResyncPending
  | no
  | wanted
  | running
deriving DecidableEq, Repr

/-- Where an outstanding entry's frame is (R48). -/
inductive Placement
  | unplaced
  | waiting
  | queued
  | onAir
  | sent
deriving DecidableEq, Repr

/-- The producer of a sequenced message and its reference for it (R48, R96, R115). -/
inductive ProducerRef
  | permitHeader (p : PermitIx)
  | permitNote (p : PermitIx) (note : Nat)
  | permitStep (p : PermitIx) (step : Nat)
  | orderSegment (o : OrderIx) (segment : Nat)
  | orderCancel (o : OrderIx)
deriving DecidableEq, Repr

/-- An entry of an outstanding list (R48). -/
structure OutEntry where
  seq : BitVec 8
  ref : Nat
  kind : FrameKind
  producer : ProducerRef
  payload : List Byte
  retries : Nat
  attempt : Nat
  placement : Placement
  repeatMark : Bool
  everOnAir : Bool
deriving DecidableEq, Repr

/-- Where a due-set frame is placed: on which channel, and under which reference. -/
structure Placed where
  chan : Chan
  ref : Nat
deriving DecidableEq, Repr

/-- A unit's due set (R49): the requests, and for each kind where its frame is placed. Worker lists ascend. -/
structure DueSet where
  resync : Bool
  poll : Bool
  report : Bool
  prompt : List WorkerIx
  alarm : List (WorkerIx × AlarmNote)
  placedResync : Option Placed
  placedAlarm : Option Placed
  placedPrompt : Option Placed
  placedPoll : Option Placed
  placedReport : Option Placed
deriving DecidableEq, Repr

/-- The retransmission timer (Table 3-1): running until a time, or paused with its remaining time. `roamed` is the timer
that a roam has stopped: it starts again at a tx-done on the unit's new channel, and not on the one it left (R80). -/
inductive LinkTimer
  | stopped
  | roamed
  | running (expiry : Nat)
  | paused (remaining : Nat)
deriving DecidableEq, Repr

/-- An accepted coded frame (R146): the kind, the subject, the counter and the code, with the N(S) awaiting done.
`live` is cleared when a RESYNC_ACK clears the awaiting record (R59); `stray` is the crew test of R118. -/
structure CodedFrame where
  kind : FrameKind
  permit : Nat
  step : Nat
  worker : Nat
  counter : BitVec 32
  code : BitVec 16
  ns : BitVec 8
  live : Bool
  stray : Bool
deriving DecidableEq, Repr

/-- The statistic counters of a unit context in the order the unit record holds them (Table 11-10): R74's thirteen,
R90's four, R149's four. -/
inductive UnitCounter
  | framesHeard
  | accepted
  | gaps
  | duplicates
  | lockouts
  | discardedInLockout
  | discardedInResync
  | invalidReports
  | resendRequests
  | goBacks
  | resyncsCompleted
  | resyncFailures
  | unexpectedAck
  | siteChanges
  | searches
  | searchesFailed
  | reacquisitions
  | wrongCode
  | replay
  | ahead
  | inLock
deriving DecidableEq, Repr

/-- A unit context (Table 3-1, Table 4-2). -/
structure UnitCtx where
  registered : Bool
  address : Nat
  key : List Byte
  /-- The expected code counter (R148). -/
  counter : BitVec 32
  failures : Nat
  codeLock : Bool
  reach : Reach
  current : Option Chan
  hint : Option Chan
  /-- Service second, or never. -/
  lastHeard : Option Nat
  vr : BitVec 8
  lockout : Bool
  resend : Bool
  awaiting : Option (BitVec 8)
  /-- The passed coded frame whose counter write-back is in flight (R150). -/
  inFlight : Option CodedFrame
  /-- Coded frames waiting at the checker behind that write-back (R150). -/
  codeQueue : List CodedFrame
  vs : BitVec 8
  na : BitVec 8
  out : List OutEntry
  busy : Bool
  resync : ResyncPending
  resyncAttempts : Nat
  /-- MODEL's own (log 15): the reachability in which the running resync began. -/
  resyncFrom : Reach
  due : DueSet
  timer : LinkTimer
  probe : Option Chan
  probesSent : Nat
  /-- MODEL's own (log 17): the reference of the probe POLL. -/
  probeRef : Option Nat
  tried : List Chan
  origin : SearchOrigin
  /-- The reply wait after a probe, or the search interval while UNREACHABLE. -/
  searchTimer : Option Nat
  blindUsed : Bool
  stats : Vector Counter 21
  /-- MODEL's own (log 9): the first message reference a frame of this registration can carry. -/
  birth : Nat
  /-- MODEL's own (log 9): a producer has told, in the step being taken, that a message is due. -/
  told : Bool
deriving DecidableEq, Repr

/-- The Unit Link Engine's settings (R47, R78) and the MODEL's two counters of references and moments (log 9). -/
structure Ule where
  window : Nat
  ahead : Nat
  behind : Nat
  retryLimit : Nat
  probesPerSite : Nat
  /-- Minutes. -/
  searchInterval : Nat
  nextRef : Nat
  moment : Nat
deriving DecidableEq, Repr

/-! ## Work orders (chapter 5) -/

/-- Order states, coded 0 to 9 in this order (Table 5-2). -/
inductive OrderState
  | free
  | queued
  | held
  | sending
  | delivered
  | accepted
  | declined
  | failed
  | withdrawn
  | expired
deriving DecidableEq, Repr

/-- The end state of the withdraw path (R101). -/
inductive EndState
  | withdrawn
  | failed
deriving DecidableEq, Repr

/-- Progress of an order's ORDER_CANCEL (Table 5-1). -/
inductive CancelState
  | none
  | due
  | pulled
deriving DecidableEq, Repr

/-- The decision of an ORDER_REPLY (R15). -/
inductive Decision
  | accept
  | decline
deriving DecidableEq, Repr

/-- A crew's reply (R99). -/
structure Reply where
  decision : Decision
  reason : Nat
deriving DecidableEq, Repr

/-- Why an order FAILED, coded 0 to 3 in this order (Table 11-11). -/
inductive FailReason
  | none
  | permitGone
  | unitGone
  | queueFull
deriving DecidableEq, Repr

/-- An order context (Table 5-1). `permit` holds the record's permit number, which START takes untested (log 25). -/
structure OrderCtx where
  state : OrderState
  /-- Address of the order's unit. -/
  unit : Nat
  priority : Nat
  permit : Option Nat
  replyWanted : Bool
  /-- Minutes, 0 for none. -/
  expiry : Nat
  bodyLen : Nat
  body : List Byte
  stamp : Nat
  postedAt : Nat
  /-- Service second. -/
  deadline : Option Nat
  segSize : Option Nat
  segCount : Option Nat
  nextSeg : Nat
  acked : Nat
  cancelling : Option EndState
  cancel : CancelState
  earlyReply : Option Reply
  reply : Option Reply
  failure : FailReason
deriving DecidableEq, Repr

/-- The Order Dispatcher's own state (R92, R106). -/
structure Odp where
  stamp : Nat
  strayReplies : Counter
  strayBulletins : Counter
deriving DecidableEq, Repr

/-! ## Switching permits (chapters 6 and 7) -/

/-- Permit states, coded 0 to 8 in this order (Table 6-2). -/
inductive PermitState
  | free
  | posted
  | issued
  | active
  | holding
  | surrenderPending
  | restoring
  | closed
  | cancelled
deriving DecidableEq, Repr

/-- Step states, coded 0 to 4 in this order (Table 6-3). -/
inductive StepState
  | pending
  | due
  | sent
  | done
  | interlocked
deriving DecidableEq, Repr

/-- A step (Table 6-3). The action and the energising flag are kept as the record's bytes, since START takes them
untested and the frame carries them unchanged (R111, R133, log 26). -/
structure Step where
  action : Byte
  device : BitVec 32
  sect : Nat
  energising : Byte
  state : StepState
deriving DecidableEq, Repr

/-- A note of a permit's note queue (R112). `id` is the model's name for it in the producer's reference. -/
structure Note where
  id : Nat
  code : NoteCode
  step : Nat
  subject : Nat
  given : Bool
deriving DecidableEq, Repr

/-- How a surrender arrived: none, CREW, LOCAL (from the desk), coded 0 to 2 in this order (Table 11-11). -/
inductive SurrenderSource
  | none
  | crew
  | desk
deriving DecidableEq, Repr

/-- A permit context (Table 6-1). Message-due is a function of it (R112). -/
structure PermitCtx where
  state : PermitState
  /-- Address of the crew unit. -/
  crew : Nat
  /-- Worker indices in record order. -/
  workers : List Nat
  /-- Section numbers in record order. -/
  sections : List Nat
  n : Nat
  h : Nat
  steps : List Step
  current : Nat
  headerDue : Bool
  headerSent : Bool
  notes : List Note
  inFlight : Nat
  source : SurrenderSource
  lastRefusal : Option (NoteCode × Nat)
deriving DecidableEq, Repr

/-- The Permit Engine's own state (R132, R146). -/
structure Pen where
  cw : Nat
  strayConfirmations : Counter
  notesLost : Counter
deriving DecidableEq, Repr

/-! ## Lone-worker supervision (chapter 9) -/

/-- Worker states, coded 0 to 7 in this order (Table 9-2). -/
inductive WorkerState
  | off
  | onDuty
  | prompted
  | silent
  | overdue
  | escalated
  | emergency
  | acknowledged
deriving DecidableEq, Repr

/-- How the present alarm began, coded 0 to 2 in this order (Table 11-10). -/
inductive AlarmOrigin
  | none
  | overdue
  | emergency
deriving DecidableEq, Repr

/-- The cause of an EMERGENCY, coded 1 to 3 in this order (Table 11-3). -/
inductive EmergencyCause
  | button
  | manDown
  | noMotion
deriving DecidableEq, Repr

/-- A worker context (Table 9-1). Times are service seconds; settings are minutes. -/
structure WorkerCtx where
  state : WorkerState
  bound : Option Nat
  interval : Nat
  lead : Nat
  grace : Nat
  escalation : Nat
  deadline : Option Nat
  timer : Option Nat
  origin : AlarmOrigin
  /-- Duty before: supervised. -/
  dutyBefore : Bool
  noteUnit : Option Nat
  escCount : BitVec 8
  lastCheckin : Option Nat
  /-- Latitude and longitude. -/
  position : Option (BitVec 32 × BitVec 32)
  openPermit : Option PermitIx
deriving DecidableEq, Repr

/-- The Lone Worker Supervisor's own state (R156, R171). -/
structure Lws where
  /-- Minutes. -/
  coverage : Nat
  strayCheckins : Counter
  strayStanddowns : Counter
  refusedStanddowns : Counter
deriving DecidableEq, Repr

/-! ## The whole -/

/-- The state of the part, with host memory and the queue of waiting commands, first in, first out. -/
structure State where
  pending : List Instr
  mem : Memory
  xif : Xif
  ports : Vector Port 4
  offers : Vector (List OfferItem) 4
  ule : Ule
  units : Vector UnitCtx 96
  odp : Odp
  orders : Vector OrderCtx 256
  pen : Pen
  permits : Vector PermitCtx 64
  /-- The Section Hold Table (R134). -/
  holds : Vector Nat 256
  lws : Lws
  workers : Vector WorkerCtx 192
  /-- MODEL's own (log 8): free values drawn so far. -/
  freeDraw : Nat
deriving DecidableEq, Repr

/-- The reasons a command could stop the machine: none. Whatever goes wrong is state of the part (FAULTED, port state
FAULT, an outcome code, a discard counter), so this type has no constructor. -/
inductive Fault
deriving DecidableEq, Repr

/-- The reasons a command could be refused. -/
inductive Refusal
  /-- Raised by the dispatch for a command that has no meaning yet; safe, since the machine stops. No arm raises it. -/
  | notModelled (mnemonic : String)
deriving DecidableEq, Repr

/-! ## Values before anything is set -/

/-- A due set with nothing in it (R50). -/
def DueSet.empty : DueSet :=
  { resync := false, poll := false, report := false, prompt := [], alarm := [],
    placedResync := none, placedAlarm := none, placedPrompt := none, placedPoll := none, placedReport := none }

/-- A unit context that is not registered; no other field has meaning (R46). -/
def UnitCtx.unregistered : UnitCtx :=
  { registered := false, address := 0, key := [], counter := 0, failures := 0, codeLock := false,
    reach := .unknown, current := none, hint := none, lastHeard := none,
    vr := 0, lockout := false, resend := false, awaiting := none, inFlight := none, codeQueue := [],
    vs := 0, na := 0, out := [], busy := false, resync := .no, resyncAttempts := 0, resyncFrom := .unknown,
    due := .empty, timer := .stopped, probe := none, probesSent := 0, probeRef := none, tried := [],
    origin := .first, searchTimer := none, blindUsed := false, stats := Vector.replicate 21 0,
    birth := 0, told := false }

/-- A port after power-on, RESET and HALT (R44), with the carrier indication at the level the modem presents. -/
def Port.off (carrierPin : Bool) (cmd : ModemCommand) : Port :=
  { settings := none, state := .off, closing := false, carrierPin := carrierPin, carrier := carrierPin,
    carrierUpAt := 0, stuck := false, stuckTimer := none, watchdog := none, slotTimer := none,
    credit := 0, acc := 0, lmax := none, queue := [], rx := [], stats := Vector.replicate 8 0, modemCmd := cmd }

/-- An order context that does not exist yet: FREE (R107). -/
def OrderCtx.free : OrderCtx :=
  { state := .free, unit := 0, priority := 0, permit := none, replyWanted := false, expiry := 0,
    bodyLen := 0, body := [], stamp := 0, postedAt := 0, deadline := none, segSize := none, segCount := none,
    nextSeg := 0, acked := 0, cancelling := none, cancel := .none, earlyReply := none, reply := none,
    failure := .none }

/-- A permit context that does not exist yet: FREE (R132). -/
def PermitCtx.free : PermitCtx :=
  { state := .free, crew := 0, workers := [], sections := [], n := 0, h := 0, steps := [], current := 0,
    headerDue := false, headerSent := false, notes := [], inFlight := 0, source := .none, lastRefusal := none }

/-- A worker context that does not exist yet: OFF with nothing set (R172). -/
def WorkerCtx.off : WorkerCtx :=
  { state := .off, bound := none, interval := 0, lead := 0, grace := 0, escalation := 0,
    deadline := none, timer := none, origin := .none, dutyBefore := false, noteUnit := none, escCount := 0,
    lastCheckin := none, position := none, openPermit := none }

/-- The Exchange Interface after power-on (R180). -/
def Xif.reset : Xif :=
  { xbase := 0, mode := .halted, fault := .none, postA := .host, postB := .host, rejected := false,
    consuming := none, waiting := none, filling := .a, otherTaken := false, notices := 0,
    overflow := Vector.replicate 8 0, pending := 0, mask := 0, noteData := 0, clock := 0, clockOn := false,
    nextPeriodic := 0, busRetries := 0, busPlan := [], clampLog := [], clampMissed := 0, systemCode := 0,
    commonLimit := 64 }

/-- The Unit Link Engine's settings before START has taken any. -/
def Ule.reset : Ule :=
  { window := 0, ahead := 0, behind := 0, retryLimit := 0, probesPerSite := 0, searchInterval := 0,
    nextRef := 0, moment := 0 }

/-- The part after power-on, with no carrier on any channel and no command waiting (R180; the values the manual gives
none for are in log 4 and log 6). -/
def State.reset : State :=
  { pending := []
    mem := []
    xif := .reset
    ports := Vector.replicate 4 (.off false .unkey)
    offers := Vector.replicate 4 []
    ule := .reset
    units := Vector.replicate 96 .unregistered
    odp := { stamp := 0, strayReplies := 0, strayBulletins := 0 }
    orders := Vector.replicate 256 .free
    pen := { cw := 0, strayConfirmations := 0, notesLost := 0 }
    permits := Vector.replicate 64 .free
    holds := Vector.replicate 256 0
    lws := { coverage := 0, strayCheckins := 0, strayStanddowns := 0, refusedStanddowns := 0 }
    workers := Vector.replicate 192 .off
    freeDraw := 0 }

end Sys2Proof.Machine
end

