-- ==== Sys2Proof/Machine/Codes.lean ====
section
/-! DEFINITION. The codes of the enumerated fields: frame kinds and their attributes (Table 1-2), Table 11-3, the state
codes of section 11.4, verb and outcome codes (Table 11-5), and the places of the statistic counters. -/

namespace Sys2Proof.Machine

/-! ## Frame kinds (Table 1-2) -/

/-- The kind's code. -/
def FrameKind.code : FrameKind → Nat
  | .orderSeg => 1
  | .orderCancel => 2
  | .permitHdr => 3
  | .permitStep => 4
  | .permitNote => 5
  | .prompt => 6
  | .alarmNote => 7
  | .poll => 8
  | .resync => 9
  | .reportDown => 10
  | .bulletin => 11
  | .checkin => 16
  | .emergency => 17
  | .standdown => 18
  | .orderReply => 19
  | .readback => 20
  | .stepDone => 21
  | .surrender => 22
  | .pollReply => 23
  | .resyncAck => 24
  | .reportUp => 25

/-- The kind a code names; codes 0, 12 to 15 and 26 to 31 are not assigned (R4). -/
def FrameKind.ofCode : Nat → Option FrameKind
  | 1 => some .orderSeg
  | 2 => some .orderCancel
  | 3 => some .permitHdr
  | 4 => some .permitStep
  | 5 => some .permitNote
  | 6 => some .prompt
  | 7 => some .alarmNote
  | 8 => some .poll
  | 9 => some .resync
  | 10 => some .reportDown
  | 11 => some .bulletin
  | 16 => some .checkin
  | 17 => some .emergency
  | 18 => some .standdown
  | 19 => some .orderReply
  | 20 => some .readback
  | 21 => some .stepDone
  | 22 => some .surrender
  | 23 => some .pollReply
  | 24 => some .resyncAck
  | 25 => some .reportUp
  | _ => none

/-- Whether the kind travels up (Table 1-2). -/
def FrameKind.isUp : FrameKind → Bool
  | .orderSeg | .orderCancel | .permitHdr | .permitStep | .permitNote | .prompt | .alarmNote | .poll | .resync
  | .reportDown | .bulletin => false
  | .checkin | .emergency | .standdown | .orderReply | .readback | .stepDone | .surrender | .pollReply | .resyncAck
  | .reportUp => true

/-- The Sequenced column of Table 1-2. -/
def FrameKind.sequenced : FrameKind → Bool
  | .orderSeg | .orderCancel | .permitHdr | .permitStep | .permitNote
  | .checkin | .standdown | .orderReply | .readback | .stepDone | .surrender => true
  | .prompt | .alarmNote | .poll | .resync | .reportDown | .bulletin
  | .emergency | .pollReply | .resyncAck | .reportUp => false

/-- The Expedited column of Table 1-2. -/
def FrameKind.expedited : FrameKind → Bool
  | .emergency | .resyncAck => true
  | _ => false

/-- The Coded column of Table 1-2. -/
def FrameKind.coded : FrameKind → Bool
  | .standdown | .readback | .stepDone | .surrender => true
  | _ => false

/-- The traffic class of a downlink kind (Table 1-2); uplink kinds have none and are never queued. -/
def FrameKind.cls : FrameKind → TrafficClass
  | .prompt | .alarmNote | .resync => .safety
  | .permitHdr | .permitStep | .permitNote | .poll | .reportDown => .permit
  | .orderSeg | .orderCancel => .order
  | _ => .routine

/-- ROUTINE 0, ORDER 1, PERMIT 2, SAFETY 3 (Table 11-3). -/
def TrafficClass.code : TrafficClass → Nat
  | .routine => 0
  | .order => 1
  | .permit => 2
  | .safety => 3

/-- The classes from highest to lowest (R28). -/
def TrafficClass.ranking : List TrafficClass :=
  [.safety, .permit, .order, .routine]

/-- The frame kind that carries a due-set request (R49). -/
def DueKind.frame : DueKind → FrameKind
  | .resync => .resync
  | .alarmNote => .alarmNote
  | .prompt => .prompt
  | .poll => .poll
  | .report => .reportDown

/-- The due-set kind a frame kind carries, if any. -/
def FrameKind.due : FrameKind → Option DueKind
  | .resync => some .resync
  | .alarmNote => some .alarmNote
  | .prompt => some .prompt
  | .poll => some .poll
  | .reportDown => some .report
  | _ => none

/-- The kind order in which the due-set frames of one unit join a list (R64). -/
def DueKind.order : List DueKind :=
  [.resync, .alarmNote, .prompt, .poll, .report]

/-! ## Table 11-3 -/

def NoteCode.num : NoteCode → Nat
  | .outOfOrder => 1
  | .notSent => 2
  | .state => 3
  | .code => 4
  | .replay => 5
  | .ahead => 6
  | .alarmOpen => 7
  | .surrenderRefused => 8
  | .cancelled => 9

def NoteCode.ofNum : Nat → Option NoteCode
  | 1 => some .outOfOrder
  | 2 => some .notSent
  | 3 => some .state
  | 4 => some .code
  | 5 => some .replay
  | 6 => some .ahead
  | 7 => some .alarmOpen
  | 8 => some .surrenderRefused
  | 9 => some .cancelled
  | _ => none

def AlarmNote.num : AlarmNote → Nat
  | .received => 1
  | .acknowledged => 2

def Decision.num : Decision → Nat
  | .accept => 1
  | .decline => 2

def Decision.ofNum : Nat → Option Decision
  | 1 => some .accept
  | 2 => some .decline
  | _ => none

def EmergencyCause.num : EmergencyCause → Nat
  | .button => 1
  | .manDown => 2
  | .noMotion => 3

def EmergencyCause.ofNum : Nat → Option EmergencyCause
  | 1 => some .button
  | 2 => some .manDown
  | 3 => some .noMotion
  | _ => none

/-! ## State codes (sections 11.2 and 11.4) -/

def PortState.num : PortState → Nat
  | .off => 0
  | .idle => 1
  | .transmitting => 2
  | .receiving => 3
  | .fault => 4

def Reach.num : Reach → Nat
  | .unknown => 0
  | .reachable => 1
  | .searching => 2
  | .unreachable => 3

def ResyncPending.num : ResyncPending → Nat
  | .no => 0
  | .wanted => 1
  | .running => 2

def WorkerState.num : WorkerState → Nat
  | .off => 0
  | .onDuty => 1
  | .prompted => 2
  | .silent => 3
  | .overdue => 4
  | .escalated => 5
  | .emergency => 6
  | .acknowledged => 7

/-- The state a recorded code names; three bits hold no other value (R189). -/
def WorkerState.ofNum : Nat → WorkerState
  | 1 => .onDuty
  | 2 => .prompted
  | 3 => .silent
  | 4 => .overdue
  | 5 => .escalated
  | 6 => .emergency
  | 7 => .acknowledged
  | _ => .off

def AlarmOrigin.num : AlarmOrigin → Nat
  | .none => 0
  | .overdue => 1
  | .emergency => 2

/-- The origin a recorded code names; code 3 names none and is read as none (log 27). -/
def AlarmOrigin.ofNum : Nat → AlarmOrigin
  | 1 => .overdue
  | 2 => .emergency
  | _ => .none

def PermitState.num : PermitState → Nat
  | .free => 0
  | .posted => 1
  | .issued => 2
  | .active => 3
  | .holding => 4
  | .surrenderPending => 5
  | .restoring => 6
  | .closed => 7
  | .cancelled => 8

/-- A code that names no state is read as FREE (R189). -/
def PermitState.ofNum : Nat → PermitState
  | 1 => .posted
  | 2 => .issued
  | 3 => .active
  | 4 => .holding
  | 5 => .surrenderPending
  | 6 => .restoring
  | 7 => .closed
  | 8 => .cancelled
  | _ => .free

def StepState.num : StepState → Nat
  | .pending => 0
  | .due => 1
  | .sent => 2
  | .done => 3
  | .interlocked => 4

/-- A recorded step state code above 4 is read as PENDING (log 26). -/
def StepState.ofNum : Nat → StepState
  | 1 => .due
  | 2 => .sent
  | 3 => .done
  | 4 => .interlocked
  | _ => .pending

def SurrenderSource.num : SurrenderSource → Nat
  | .none => 0
  | .crew => 1
  | .desk => 2

/-- Code 3 names no source and is read as none (log 26). -/
def SurrenderSource.ofNum : Nat → SurrenderSource
  | 1 => .crew
  | 2 => .desk
  | _ => .none

def OrderState.num : OrderState → Nat
  | .free => 0
  | .queued => 1
  | .held => 2
  | .sending => 3
  | .delivered => 4
  | .accepted => 5
  | .declined => 6
  | .failed => 7
  | .withdrawn => 8
  | .expired => 9

/-- A code that names no state is read as FREE (R189). -/
def OrderState.ofNum : Nat → OrderState
  | 1 => .queued
  | 2 => .held
  | 3 => .sending
  | 4 => .delivered
  | 5 => .accepted
  | 6 => .declined
  | 7 => .failed
  | 8 => .withdrawn
  | 9 => .expired
  | _ => .free

def FailReason.num : FailReason → Nat
  | .none => 0
  | .permitGone => 1
  | .unitGone => 2
  | .queueFull => 3

/-- A failure reason code above 3 is read as none (log 25). -/
def FailReason.ofNum : Nat → FailReason
  | 1 => .permitGone
  | 2 => .unitGone
  | 3 => .queueFull
  | _ => .none

/-- CANCELLING: no 0, WITHDRAWN 1, FAILED 2 (Table 11-11). -/
def cancellingNum : Option EndState → Nat
  | none => 0
  | some .withdrawn => 1
  | some .failed => 2

/-- The cancelling code of an order record (Table 11-11); a code above 2 is read as no (log 25). -/
def cancellingOfNum : Nat → Option EndState
  | 1 => some .withdrawn
  | 2 => some .failed
  | _ => none

/-! ## Classes of states -/

/-- In service: IDLE, TRANSMITTING or RECEIVING (R18). -/
def PortState.inService : PortState → Bool
  | .idle | .transmitting | .receiving => true
  | .off | .fault => false

/-- Live orders stand in their unit's queue (R92). -/
def OrderState.live : OrderState → Bool
  | .queued | .held | .sending | .delivered => true
  | _ => false

/-- The open permit states (R110). -/
def PermitState.isOpen : PermitState → Bool
  | .posted | .issued | .active | .holding | .surrenderPending | .restoring => true
  | .free | .closed | .cancelled => false

/-- The states in which a permit holds its sections (R134). -/
def PermitState.holds : PermitState → Bool
  | .holding | .surrenderPending => true
  | _ => false

/-- The unaccounted worker states (R155). -/
def WorkerState.unaccounted : WorkerState → Bool
  | .silent | .overdue | .escalated | .emergency | .acknowledged => true
  | .off | .onDuty | .prompted => false

/-! ## Places of the statistic counters -/

/-- Place in the channel status block, in the order of R41. -/
def PortCounter.ix : PortCounter → Fin 8
  | .sent => 0
  | .received => 1
  | .checkFailures => 2
  | .malformed => 3
  | .unregistered => 4
  | .overruns => 5
  | .stuckEvents => 6
  | .faults => 7

/-- Place in the unit record: R74 in order, then R90's four, then R149's four (Table 11-10). -/
def UnitCounter.ix : UnitCounter → Fin 21
  | .framesHeard => 0
  | .accepted => 1
  | .gaps => 2
  | .duplicates => 3
  | .lockouts => 4
  | .discardedInLockout => 5
  | .discardedInResync => 6
  | .invalidReports => 7
  | .resendRequests => 8
  | .goBacks => 9
  | .resyncsCompleted => 10
  | .resyncFailures => 11
  | .unexpectedAck => 12
  | .siteChanges => 13
  | .searches => 14
  | .searchesFailed => 15
  | .reacquisitions => 16
  | .wrongCode => 17
  | .replay => 18
  | .ahead => 19
  | .inLock => 20

/-! ## Verbs and outcomes (Table 11-5) -/

/-- The outcomes of a verb, coded 1 to 11 in this order. -/
inductive VerbOutcome
  | done
  | badVerb
  | badIndex
  | state
  | notRegistered
  | capacity
  | malformed
  | conflict
  | alarmOpen
  | inUse
  | channelState
deriving DecidableEq, Repr

def VerbOutcome.code : VerbOutcome → Nat
  | .done => 1
  | .badVerb => 2
  | .badIndex => 3
  | .state => 4
  | .notRegistered => 5
  | .capacity => 6
  | .malformed => 7
  | .conflict => 8
  | .alarmOpen => 9
  | .inUse => 10
  | .channelState => 11

/-- The code of a region in BUS_TIMEOUT's detail: 0 to 8 in the order of Table 10-1. -/
def regionCode : Region → Nat
  | .config => 0
  | .postingA => 1
  | .postingB => 2
  | .noticeA => 3
  | .noticeB => 4
  | .units => 5
  | .workers => 6
  | .permits => 7
  | .orders => 8

/-- Offset of a region in the exchange area (Table 10-1). -/
def regionOffset : Region → Nat
  | .config => 0x00000
  | .postingA => 0x00200
  | .postingB => 0x00600
  | .noticeA => 0x00A00
  | .noticeB => 0x01200
  | .units => 0x01A00
  | .workers => 0x03200
  | .permits => 0x04A00
  | .orders => 0x08A00

end Sys2Proof.Machine
end

