-- ==== Sys2Proof/Machine/Notices.lean ====
section
/-! DEFINITION. The notices of the part and how each lies in its 16-byte entry (R184, Tables 2-8, 3-9, 4-3, 5-5, 6-7,
7-1, 9-5, 10-4, 11-6, 11-7). -/

namespace Sys2Proof.Machine

/-- The notice classes, 1 to 8 in this order (Table 10-4). -/
inductive NoticeClass
  | emergency
  | part
  | alarm
  | permit
  | unit
  | channel
  | order
  | page
deriving DecidableEq, Repr

/-- Class c as c - 1: its place among the overflow counts and its pending bit. -/
def NoticeClass.ix : NoticeClass → Fin 8
  | .emergency => 0
  | .part => 1
  | .alarm => 2
  | .permit => 3
  | .unit => 4
  | .channel => 5
  | .order => 6
  | .page => 7

/-- What an EMERGENCY or REPEAT notice tells (Table 11-7). -/
structure EmergencyDetail where
  sender : Nat
  cause : EmergencyCause
  mismatch : Bool
  before : WorkerState
  openPermit : Option PermitIx
  fix : Option (BitVec 32 × BitVec 32)
deriving DecidableEq, Repr

/-- The notices, each with the fields its table lists, in the order listed. -/
inductive Notice
  | clamp (source : ClampSource) (setting found used : Nat)
  | started (units workers openPermits liveOrders : Nat)
  | halted
  | leftOff (c : Chan) (lmax : Option Nat)
  | enabled (c : Chan) (lmax : Option Nat) (limit : Nat)
  | disabled (c : Chan) (limit : Nat)
  | off (c : Chan)
  | fault (c : Chan) (watchdog : Bool) (handedBack : Nat)
  | carrierStuck (c : Chan) (limit : Nat)
  | restored (c : Chan) (seconds : Nat)
  | lockout (u : UnitIx) (ns vr : BitVec 8)
  | resyncDone (u : UnitIx) (entries : Nat)
  | startDropped (u : UnitIx) (address : Nat) (duplicate : Bool)
  | siteChange (u : UnitIx) (old new : Chan)
  | searching (u : UnitIx) (channelLost : Bool) (current : Option Chan)
  | unreachable (u : UnitIx) (resyncFailed : Bool) (handedBack : Nat)
  | reacquired (u : UnitIx) (c : Chan) (former : Reach)
  | codeLock (u : UnitIx) (kind : FrameKind) (refusal : NoteCode)
  | delivered (o : OrderIx) (unit : Nat) (entered : OrderState)
  | replied (o : OrderIx) (reply : Reply)
  | expired (o : OrderIx) (unit : Nat) (before : OrderState)
  | withdrawn (o : OrderIx) (unit acked : Nat)
  | failed (o : OrderIx) (unit : Nat) (reason : FailReason)
  | bulletin (o : OrderIx) (chans : List Chan) (members : Nat)
  | issued (p : PermitIx) (crew : Nat)
  | active (p : PermitIx) (crew : Nat)
  | stepDone (p : PermitIx) (step worker : Nat) (checkedIn : Bool)
  | holding (p : PermitIx) (sections : List Nat) (fromPending : Bool)
  | surrenderRequest (p : PermitIx) (fromDesk : Bool)
  | restoring (p : PermitIx) (step : Nat)
  | closed (p : PermitIx) (byStep : Bool)
  | cancelled (p : PermitIx) (before : PermitState)
  | refused (p : PermitIx) (kind : FrameKind) (why : NoteCode) (step : Nat) (alarm : Option (Nat × WorkerState))
  | stray (p : PermitIx) (sender : Nat) (kind : FrameKind)
  | crewMissing (p : PermitIx) (crew : Nat)
  | interlocked (p : PermitIx) (step sect count : Nat) (holder : Option PermitIx) (revoked : Bool)
  | interlockCleared (p : PermitIx) (step sect : Nat) (clearer : PermitIx)
  | silent (w : WorkerIx) (bound lastHeard : Option Nat)
  | overdue (w : WorkerIx) (bound deadline : Option Nat) (left : WorkerState) (openPermit : Option PermitIx)
  | cleared (w : WorkerIx) (left : WorkerState)
  | standdown (w : WorkerIx) (sender : Nat) (entered : WorkerState)
  | standdownRefused (w : WorkerIx) (sender : Nat) (refusal : NoteCode)
  | escalated (w : WorkerIx) (bound deadline : Option Nat) (openPermit : Option PermitIx) (count : BitVec 8)
  | emergency (w : WorkerIx) (d : EmergencyDetail)
  | repeated (w : WorkerIx) (d : EmergencyDetail)
  | pageDone (p : Page) (count notDone : Nat)
  | pageReturned (p : Page)
deriving DecidableEq, Repr

/-- The class of a notice (Table 10-4). -/
def Notice.cls : Notice → NoticeClass
  | .escalated .. | .emergency .. | .repeated .. => .emergency
  | .clamp .. | .started .. | .halted => .part
  | .silent .. | .overdue .. | .cleared .. | .standdown .. | .standdownRefused .. => .alarm
  | .issued .. | .active .. | .stepDone .. | .holding .. | .surrenderRequest .. | .restoring .. | .closed ..
  | .cancelled .. | .refused .. | .stray .. | .crewMissing .. | .interlocked .. | .interlockCleared .. => .permit
  | .lockout .. | .resyncDone .. | .startDropped .. | .siteChange .. | .searching .. | .unreachable ..
  | .reacquired .. | .codeLock .. => .unit
  | .leftOff .. | .enabled .. | .disabled .. | .off .. | .fault .. | .carrierStuck .. | .restored .. => .channel
  | .delivered .. | .replied .. | .expired .. | .withdrawn .. | .failed .. | .bulletin .. => .order
  | .pageDone .. | .pageReturned .. => .page

/-- The kind code of a notice within its class, from 1 in the order of the class's tables (section 11.2). -/
def Notice.kind : Notice → Nat
  | .escalated .. => 1
  | .emergency .. => 2
  | .repeated .. => 3
  | .clamp .. => 1
  | .started .. => 2
  | .halted => 3
  | .silent .. => 1
  | .overdue .. => 2
  | .cleared .. => 3
  | .standdown .. => 4
  | .standdownRefused .. => 5
  | .issued .. => 1
  | .active .. => 2
  | .stepDone .. => 3
  | .holding .. => 4
  | .surrenderRequest .. => 5
  | .restoring .. => 6
  | .closed .. => 7
  | .cancelled .. => 8
  | .refused .. => 9
  | .stray .. => 10
  | .crewMissing .. => 11
  | .interlocked .. => 12
  | .interlockCleared .. => 13
  | .lockout .. => 1
  | .resyncDone .. => 2
  | .startDropped .. => 3
  | .siteChange .. => 4
  | .searching .. => 5
  | .unreachable .. => 6
  | .reacquired .. => 7
  | .codeLock .. => 8
  | .leftOff .. => 1
  | .enabled .. => 2
  | .disabled .. => 3
  | .off .. => 4
  | .fault .. => 5
  | .carrierStuck .. => 6
  | .restored .. => 7
  | .delivered .. => 1
  | .replied .. => 2
  | .expired .. => 3
  | .withdrawn .. => 4
  | .failed .. => 5
  | .bulletin .. => 6
  | .pageDone .. => 1
  | .pageReturned .. => 2

/-- PAGE notices carry the page as their record index, A 0 and B 1 (section 11.2). -/
def Page.num : Page → Nat
  | .a => 0
  | .b => 1

/-- The record index of a notice; PART notices carry 0 (section 11.2). -/
def Notice.index : Notice → Nat
  | .clamp .. | .started .. | .halted => 0
  | .leftOff c .. | .enabled c .. | .disabled c .. | .off c | .fault c .. | .carrierStuck c .. | .restored c .. => c.val
  | .lockout u .. | .resyncDone u .. | .startDropped u .. | .siteChange u .. | .searching u .. | .unreachable u ..
  | .reacquired u .. | .codeLock u .. => u.val
  | .delivered o .. | .replied o .. | .expired o .. | .withdrawn o .. | .failed o .. | .bulletin o .. => o.val
  | .issued p .. | .active p .. | .stepDone p .. | .holding p .. | .surrenderRequest p .. | .restoring p ..
  | .closed p .. | .cancelled p .. | .refused p .. | .stray p .. | .crewMissing p .. | .interlocked p ..
  | .interlockCleared p .. => p.val
  | .silent w .. | .overdue w .. | .cleared w .. | .standdown w .. | .standdownRefused w .. | .escalated w ..
  | .emergency w .. | .repeated w .. => w.val
  | .pageDone p .. | .pageReturned p => p.num

/-- A unit address in two bytes, 0 for none (R188). -/
def addressBytes (a : Option Nat) : List Byte :=
  beBytes 2 (a.getD 0)

/-- A time in `n` bytes, its low bits, all ones for none or never (R188). -/
def timeBytes (n : Nat) (t : Option Nat) : List Byte :=
  match t with
  | some v => beBytes n v
  | none => List.replicate n 0xFF#8

/-- A permit index, step number or channel in one byte, FF hex for none (R188); a notice's L_max of none is written so too
(log 58). -/
def indexByte (i : Option Nat) : Byte :=
  match i with
  | some v => byteOf v
  | none => 0xFF#8

/-- Source and index bytes of a clamp log entry: 0 configuration record, 1 channel, 2 worker (Table 11-9); the index byte
of the configuration record is 0 (log 21). -/
def ClampSource.bytes : ClampSource → List Byte
  | .config => [0, 0]
  | .channel c => [1, byteOf c.val]
  | .worker w => [2, byteOf w.val]

/-- A channel set in one byte, bit c for channel c (section 11.2). -/
def chanSetByte (cs : List Chan) : Byte :=
  byteOf ((List.finRange 4).foldl (fun acc c => if cs.contains c then acc + 2 ^ c.val else acc) 0)

/-- The packed detail of EMERGENCY and REPEAT notices (Table 11-7). -/
def EmergencyDetail.bytes (d : EmergencyDetail) : List Byte :=
  beBytes 3 (d.sender % 1024 * 2 ^ 14 + d.cause.num * 2 ^ 12 + bit d.mismatch * 2 ^ 11 + bit d.fix.isSome * 2 ^ 10
    + d.before.num * 2 ^ 7 + ((d.openPermit.map Fin.val).getD 127))
  ++ (match d.fix with
      | some (lat, lon) => beBytes 4 lat.toNat ++ beBytes 4 lon.toNat
      | none => List.replicate 8 0)

/-- The detail bytes of a notice: the fields its table lists, in the order listed, in the sizes of section 11.2. DESIGN
CHOICE (log 58, unsafe): an L_max of none in LEFT_OFF (R42) is FF hex, as in the channel status block of Table 11-9, for
R188 names no absent value of an L_max. DESIGN CHOICE (log 70, unsafe): the refusal of CODE_LOCK is written as its PERMIT_NOTE
code of Table 11-3, which section 11.2 names for REFUSED and STANDDOWN_REFUSED only. -/
def Notice.detail : Notice → List Byte
  | .clamp source setting found used => source.bytes ++ [byteOf setting] ++ beBytes 2 found ++ beBytes 2 used
  | .started u w p o => [byteOf u, byteOf w, byteOf p] ++ beBytes 2 o
  | .halted => []
  | .leftOff _ lmax => [indexByte lmax]
  | .enabled _ lmax limit => [indexByte lmax, byteOf limit]
  | .disabled _ limit => [byteOf limit]
  | .off _ => []
  | .fault _ watchdog n => [if watchdog then 2 else 1, byteOf n]
  | .carrierStuck _ limit => [byteOf limit]
  | .restored _ seconds => beBytes 4 seconds
  | .lockout _ ns vr => [ns, vr]
  | .resyncDone _ k => [byteOf k]
  | .startDropped _ a duplicate => beBytes 2 a ++ [if duplicate then 2 else 1]
  | .siteChange _ b c => [byteOf b.val, byteOf c.val]
  | .searching _ lost c => [if lost then 2 else 1, indexByte (c.map Fin.val)]
  | .unreachable _ resyncLost k => [if resyncLost then 2 else 1, byteOf k]
  | .reacquired _ c former => [byteOf c.val, byteOf former.num]
  | .codeLock _ kind refusal => [byteOf kind.code, byteOf refusal.num]
  | .delivered _ a st => beBytes 2 a ++ [byteOf st.num]
  | .replied _ r => [byteOf r.decision.num, byteOf r.reason]
  | .expired _ a st => beBytes 2 a ++ [byteOf st.num]
  | .withdrawn _ a k => beBytes 2 a ++ [byteOf k]
  | .failed _ a r => beBytes 2 a ++ [byteOf r.num]
  | .bulletin _ cs n => [chanSetByte cs, byteOf n]
  | .issued _ a => beBytes 2 a
  | .active _ a => beBytes 2 a
  | .stepDone _ k w c => [byteOf k, byteOf w, byteOf (bit c)]
  | .holding _ secs fromPending =>
      [byteOf secs.length] ++ secs.map byteOf ++ [if fromPending then 2 else 1]
  | .surrenderRequest _ desk => [if desk then 2 else 1]
  | .restoring _ k => [byteOf k]
  | .closed _ byStep => [if byStep then 2 else 1]
  | .cancelled _ st => [byteOf st.num]
  | .refused _ kind why step alarm =>
      [byteOf kind.code, byteOf why.num, byteOf step]
      ++ (match alarm with
          | some (w, st) => [byteOf w, byteOf st.num]
          | none => [])
  | .stray _ a kind => beBytes 2 a ++ [byteOf kind.code]
  | .crewMissing _ a => beBytes 2 a
  | .interlocked _ k sect n holder revoked =>
      [byteOf k, byteOf sect, byteOf n, indexByte (holder.map Fin.val), if revoked then 2 else 1]
  | .interlockCleared _ k sect p => [byteOf k, byteOf sect, byteOf p.val]
  | .silent _ b t => addressBytes b ++ timeBytes 4 t
  | .overdue _ b d st p => addressBytes b ++ timeBytes 4 d ++ [byteOf st.num, indexByte (p.map Fin.val)]
  | .cleared _ st => [byteOf st.num]
  | .standdown _ a st => beBytes 2 a ++ [byteOf st.num]
  | .standdownRefused _ a r => beBytes 2 a ++ [byteOf r.num]
  | .escalated _ b d p n => addressBytes b ++ timeBytes 4 d ++ [indexByte (p.map Fin.val), n]
  | .emergency _ d => d.bytes
  | .repeated _ d => d.bytes
  | .pageDone _ count notDone => [byteOf count, byteOf notDone]
  | .pageReturned _ => []

/-- A notice's 16 bytes (Table 11-6): class and kind, record index, the low 24 bits of the service time, and eleven
detail bytes, those its kind does not use 0 (R188). -/
def Notice.bytes (nt : Notice) (second : Nat) : List Byte :=
  [byteOf ((nt.cls.ix.val + 1) * 16 + nt.kind), byteOf nt.index] ++ beBytes 3 second
  ++ (nt.detail ++ List.replicate 11 0).take 11

end Sys2Proof.Machine
end

