-- ==== Sys2Proof/Machine/Ops.lean ====
section
/-! DEFINITION. The shared operations: host memory, the contexts by index, time, the accesses of the Exchange Interface
to host memory with their timeouts, notices, the clamp log, and the tellings between blocks. -/

namespace Sys2Proof.Machine

/-! ## Host memory -/

/-- What an unlisted address of host memory reads as. The manual gives no contents before the server stores some
(log 4). -/
def Memory.unlisted : Byte := 0

/-- The byte at an address. -/
def Memory.read : Memory → Nat → Byte
  | [], _ => Memory.unlisted
  | (k, v) :: rest, a => if k = a then v else Memory.read rest a

/-- Store a byte at an address, keeping the canonical form. -/
def Memory.write : Memory → Nat → Byte → Memory
  | [], a, b => if b = Memory.unlisted then [] else [(a, b)]
  | (k, v) :: rest, a, b =>
    if a < k then
      if b = Memory.unlisted then (k, v) :: rest else (a, b) :: (k, v) :: rest
    else if a = k then
      if b = Memory.unlisted then rest else (a, b) :: rest
    else
      (k, v) :: Memory.write rest a b

/-- The canonical form: addresses strictly rising, and no entry equal to what an unlisted address reads as. -/
def Memory.wf : Memory → Bool
  | [] => true
  | (k, v) :: rest =>
    v != Memory.unlisted && (match rest with | [] => true | (k', _) :: _ => decide (k < k')) && Memory.wf rest

/-- Store bytes at rising addresses. -/
def Memory.writeBytes (m : Memory) (a : Nat) : List Byte → Memory
  | [] => m
  | b :: bs => Memory.writeBytes (m.write a b) (a + 1) bs

/-- The bytes at `n` rising addresses. -/
def Memory.readBytes (m : Memory) (a n : Nat) : List Byte :=
  (List.range n).map fun i => m.read (a + i)

/-- The server's stores, in the order it made them (log 3). -/
def Memory.stores (m : Memory) (cells : List Host.Cell) : Memory :=
  cells.foldl (fun m c => m.write c.1 c.2) m

/-! ## Contexts by index -/

def State.port (s : State) (c : Chan) : Port := s.ports[c.val]
def State.setPort (s : State) (c : Chan) (p : Port) : State := { s with ports := s.ports.set c.val p }
def State.modPort (s : State) (c : Chan) (f : Port → Port) : State := s.setPort c (f (s.port c))

def State.offer (s : State) (c : Chan) : List OfferItem := s.offers[c.val]
def State.setOffer (s : State) (c : Chan) (l : List OfferItem) : State :=
  { s with offers := s.offers.set c.val l }

def State.unit (s : State) (u : UnitIx) : UnitCtx := s.units[u.val]
def State.setUnit (s : State) (u : UnitIx) (x : UnitCtx) : State := { s with units := s.units.set u.val x }
def State.modUnit (s : State) (u : UnitIx) (f : UnitCtx → UnitCtx) : State := s.setUnit u (f (s.unit u))

def State.worker (s : State) (w : WorkerIx) : WorkerCtx := s.workers[w.val]
def State.setWorker (s : State) (w : WorkerIx) (x : WorkerCtx) : State :=
  { s with workers := s.workers.set w.val x }
def State.modWorker (s : State) (w : WorkerIx) (f : WorkerCtx → WorkerCtx) : State := s.setWorker w (f (s.worker w))

def State.permit (s : State) (p : PermitIx) : PermitCtx := s.permits[p.val]
def State.setPermit (s : State) (p : PermitIx) (x : PermitCtx) : State :=
  { s with permits := s.permits.set p.val x }

def State.order (s : State) (o : OrderIx) : OrderCtx := s.orders[o.val]
def State.setOrder (s : State) (o : OrderIx) (x : OrderCtx) : State := { s with orders := s.orders.set o.val x }
def State.modOrder (s : State) (o : OrderIx) (f : OrderCtx → OrderCtx) : State := s.setOrder o (f (s.order o))

/-- The hold count of a section (R134); a number above 255 names no section and has none (R143). -/
def State.hold (s : State) (k : Nat) : Nat := if h : k < 256 then s.holds[k] else 0
def State.setHold (s : State) (k n : Nat) : State :=
  if h : k < 256 then { s with holds := s.holds.set k n } else s

def State.setXif (s : State) (x : Xif) : State := { s with xif := x }
def State.setMem (s : State) (m : Memory) : State := { s with mem := m }

/-- Every index of a table in rising order, each taken in turn. -/
def forAll {n : Nat} (f : Fin n → State → State) (s : State) : State :=
  (List.finRange n).foldl (fun s i => f i s) s

/-- The index a posting entry or a payload names, when it lies in the table. -/
def indexIn (n i : Nat) : Option (Fin n) :=
  if h : i < n then some ⟨i, h⟩ else none

/-- The registered unit context whose address is the one given (R54); registered contexts hold distinct addresses. -/
def State.unitOf (s : State) (address : Nat) : Option UnitIx :=
  (List.finRange 96).find? fun u => (s.unit u).registered && (s.unit u).address == address

/-- One more on a port's statistic counter (R41). -/
def Port.count (p : Port) (k : PortCounter) : Port :=
  { p with stats := p.stats.set k.ix.val (satInc p.stats[k.ix.val]) }

/-- One more on a unit's statistic counter (R74, R90, R149). -/
def UnitCtx.count (x : UnitCtx) (k : UnitCounter) : UnitCtx :=
  { x with stats := x.stats.set k.ix.val (satInc x.stats[k.ix.val]) }

/-! ## Time -/

/-- Microseconds in a service second. -/
def usPerSecond : Nat := 1000000

/-- The current service second (00_scope, section 4, Service clock). -/
def State.second (s : State) : Nat := s.xif.clock / usPerSecond

/-- Time passes until `t` at least, when the service clock runs: an expiry command is the expiry itself, so it is taken
at its time or later (log 2). -/
def State.advanceTo (s : State) (t : Nat) : State :=
  if s.xif.clockOn then { s with xif := { s.xif with clock := max s.xif.clock t } } else s

/-! ## FAULTED, and the accesses to host memory (R186, R187) -/

/-- The modes in which the part makes exchange-area accesses: all but HALTED and FAULTED (R187, Table 10-3). -/
def PartMode.busOn : PartMode → Bool
  | .starting | .running | .halting => true
  | .halted | .faulted => false

/-- The pending bit of a class set (R184). -/
def Xif.setPending (x : Xif) (k : NoticeClass) : Xif :=
  { x with pending := x.pending ||| (1#8 <<< k.ix.val) }

/-- Entry to FAULTED: the fault code and detail are set, the PART class becomes pending, and the service clock runs
(R176, R178, R187). -/
def State.enterFaulted (s : State) (f : FaultInfo) : State :=
  { s with xif := { s.xif with mode := .faulted, fault := f, clockOn := true }.setPending .part }

/-- One exchange-area access (R186). Where no timeout is announced for it, it completes. An access that times out once is
made again and completes, and bus retries rises by 1; one that times out twice is a bus fault. -/
def State.access (s : State) (r : Region) (isWrite : Bool) : State :=
  match s.xif.busPlan with
  | [] => s
  | (n + 1, again) :: rest => { s with xif := { s.xif with busPlan := (n, again) :: rest } }
  | (0, false) :: rest => { s with xif := { s.xif with busPlan := rest, busRetries := satInc s.xif.busRetries } }
  | (0, true) :: rest => { s with xif := { s.xif with busPlan := rest } }.enterFaulted (.busTimeout r isWrite)

/-- `n` reads of fields of a region, one after another, stopping at a bus fault. -/
def State.readAccesses (s : State) (r : Region) : Nat → State
  | 0 => s
  | n + 1 => if s.xif.mode.busOn then (s.access r false).readAccesses r n else s

/-- Host address of a byte of the exchange area (R174; addresses do not wrap, log 5). -/
def State.areaAddr (s : State) (r : Region) (off : Nat) : Nat :=
  s.xif.xbase.toNat * 4096 + regionOffset r + off

/-- The bytes of a field of the exchange area. -/
def State.fieldBytes (s : State) (r : Region) (off n : Nat) : List Byte :=
  s.mem.readBytes (s.areaAddr r off) n

/-- The number a field of the exchange area holds (R189). -/
def State.field (s : State) (r : Region) (off n : Nat) : Nat :=
  beNat (s.fieldBytes r off n)

/-- The part writes one field: one access, made in the modes that make accesses; a bus fault leaves the bytes as they
were (R186, R187). -/
def State.writeField (s : State) (r : Region) (off : Nat) (bs : List Byte) : State :=
  if s.xif.mode.busOn then
    let s' := s.access r true
    if s'.xif.mode.busOn then { s' with mem := s'.mem.writeBytes (s'.areaAddr r off) bs } else s'
  else s

/-- The part writes fields of one record, each whole (R188). -/
def State.writeFields (s : State) (r : Region) (base : Nat) (fields : List (Nat × List Byte)) : State :=
  fields.foldl (fun s f => s.writeField r (base + f.1) f.2) s

/-! ## Notices (R184, R187) -/

/-- The region of a notice page. -/
def Page.noticeRegion : Page → Region
  | .a => .noticeA
  | .b => .noticeB

/-- The region of a posting page. -/
def Page.postingRegion : Page → Region
  | .a => .postingA
  | .b => .postingB

/-- The other page of a pair. -/
def Page.other : Page → Page
  | .a => .b
  | .b => .a

/-- A notice is raised (R184, R187). In STARTING, RUNNING and HALTING it is appended to the FILLING page when that holds
fewer than 127 and counted as overflow otherwise, and its class becomes pending; one whose write meets a bus fault is
not completed (log 38). In FAULTED only the EMERGENCY class becomes pending. -/
def State.raise (s : State) (nt : Notice) : State :=
  if s.xif.mode.busOn then
    if s.xif.notices < 127 then
      let s' := s.writeField s.xif.filling.noticeRegion (16 * (s.xif.notices + 1)) (nt.bytes s.second)
      if s'.xif.mode.busOn then
        { s' with xif := { s'.xif with notices := s'.xif.notices + 1 }.setPending nt.cls }
      else s'
    else
      { s with xif := { s.xif with
          overflow := s.xif.overflow.set nt.cls.ix.val (satInc s.xif.overflow[nt.cls.ix.val]) }.setPending nt.cls }
  else if s.xif.mode = .faulted ∧ nt.cls = .emergency then
    { s with xif := s.xif.setPending .emergency }
  else s

/-- The header of the FILLING page is written: number of notices, overflow counts, service time (R183, Table 11-6). -/
def State.writeNoticeHeader (s : State) : State :=
  s.writeField s.xif.filling.noticeRegion 0
    ([byteOf s.xif.notices] ++ s.xif.overflow.toList ++ beBytes 4 s.second ++ List.replicate 3 0)

/-! ## The clamp log (R177) -/

/-- Offset of the clamp log's first entry in the configuration record (Table 11-8). -/
def clampLogOffset : Nat := 0x0E4

/-- A logged replacement: entered when the log holds fewer than 32, else counted as not entered; the log is written at
each change, and a PART notice CLAMP is raised in either case (R177, Table 11-9). Source, index and setting of an entry are
written in one access (log 21). DESIGN CHOICE (log 74, unsafe): the entry's fields are written before the count of entries,
and the log before the notice; R177 gives no order. -/
def State.clamp (s : State) (e : ClampEntry) : State :=
  let n := s.xif.clampLog.length
  let s :=
    if n < 32 then
      { s with xif := { s.xif with clampLog := s.xif.clampLog ++ [e] } }.writeFields .config 0
        [(clampLogOffset + 8 * n, e.source.bytes ++ [byteOf e.setting]),
         (clampLogOffset + 8 * n + 4, beBytes 2 e.found), (clampLogOffset + 8 * n + 6, beBytes 2 e.used),
         (0x0E0, [byteOf (n + 1)])]
    else
      { s with xif := { s.xif with clampMissed := satInc s.xif.clampMissed } }.writeFields .config 0
        [(0x0E1, [satInc s.xif.clampMissed])]
  s.raise (.clamp e.source e.setting e.found e.used)

/-- Logged replacements in turn. -/
def State.clamps (s : State) (es : List ClampEntry) : State :=
  es.foldl State.clamp s

/-- A value brought into a range, the replacement logged when there is one (00_scope, section 4, Clamping). -/
def clampTo (src : ClampSource) (setting lo hi v : Nat) : Nat × List ClampEntry :=
  let used := max lo (min hi v)
  (used, if used = v then [] else [{ source := src, setting := setting, found := v, used := used }])

/-- The same, with a default for a value of 0 that is not logged. -/
def clampOrDefault (src : ClampSource) (setting lo hi dflt v : Nat) : Nat × List ClampEntry :=
  if v = 0 then (dflt, []) else clampTo src setting lo hi v

/-! ## Tellings to the Unit Link Engine -/

/-- A producer tells the engine that a message has become due for the unit with this address; when no registered
context holds it, the telling has no effect (R112). The engine acts on it at the end of the step (log 9). -/
def State.tellDue (s : State) (address : Nat) : State :=
  match s.unitOf address with
  | some u => s.modUnit u fun x => { x with told := true }
  | none => s

/-- A fresh message reference. -/
def State.bumpRef (s : State) : State :=
  { s with ule := { s.ule with nextRef := s.ule.nextRef + 1 } }

end Sys2Proof.Machine
end

