-- ==== Sys2Proof/Machine/Flags.lean ====
section
/-! DEFINITION. The values computed from the pending classes and the part's status: the interrupt line and what reads of
the registers return (R174, R176, R181, R185, Table 11-12). -/

namespace Sys2Proof.Machine

/-! ## Pending classes (R185) -/

/-- The interrupt line is asserted while any pending class is not masked (R185). -/
def State.interruptLine (s : State) : Bool := (s.xif.pending &&& ~~~s.xif.mask) != 0

/-- The highest pending class, 1 being the highest; 0 when none is pending (R185). -/
def highestPending (pending : BitVec 8) : Nat :=
  match (List.finRange 8).find? fun i => pending.getLsbD i.val with
  | some i => i.val + 1
  | none => 0

/-- The pending bits once the highest class's bit is cleared (R185). -/
def clearHighest (pending : BitVec 8) : BitVec 8 :=
  if highestPending pending = 0 then pending else pending &&& ~~~(1#8 <<< (highestPending pending - 1))

/-- What a read of NOTE returns: the highest pending class, and which notice page is FILLING (Table 11-12). -/
def Xif.noteWord (x : Xif) : BitVec 32 :=
  BitVec.ofNat 32 (highestPending x.pending + (match x.filling with | .a => 0 | .b => 2 ^ 8))

/-! ## Register reads (Table 11-12) -/

/-- The mode field of XCTL. -/
def PartMode.num : PartMode → Nat
  | .halted => 0
  | .starting => 1
  | .running => 2
  | .halting => 3
  | .faulted => 4

/-- The fault code and detail fields of XCTL (R176). -/
def FaultInfo.word : FaultInfo → Nat
  | .none => 0
  | .noBase => 1 * 2 ^ 4
  | .busTimeout r w => 2 * 2 ^ 4 + bit w * 2 ^ 12 + regionCode r * 2 ^ 8
  | .startConflict p w q => 3 * 2 ^ 4 + p.val * 2 ^ 26 + w.val * 2 ^ 18 + q.val * 2 ^ 12

/-- What a read of XCTL returns (R176). -/
def State.xctlRead (s : State) : BitVec 32 := BitVec.ofNat 32 (s.xif.mode.num + s.xif.fault.word)

/-- Whether a posting page is PART. -/
def PageState.isPart (p : PageState) : Bool := p == .part

/-- What a read of POST returns (R181). -/
def State.postRead (s : State) : BitVec 32 :=
  BitVec.ofNat 32 (bit s.xif.postA.isPart + 2 * bit s.xif.postB.isPart + 4 * bit s.xif.rejected)

/-- What a read of XBASE returns: its low 12 bits read as zero (R174). -/
def State.xbaseRead (s : State) : BitVec 32 := s.xif.xbase ++ 0#12

end Sys2Proof.Machine
end

