-- ==== Sys2Proof/Machine/Airtime.lean ====
section
/-! DEFINITION. Airtime arithmetic (R20, R21), the taking of channel settings (R17), and the common segment limit
(R22). -/

namespace Sys2Proof.Machine

/-- Bits per second of a rate code; a code above 2 is taken as 2 (Table 2-1, R17). -/
def rateBps : Nat → Nat
  | 0 => 4800
  | 1 => 9600
  | _ => 19200

/-- A quotient rounded up (00_scope, section 4, Rounding). -/
def divUp (a b : Nat) : Nat := (a + b - 1) / b

/-- B: coded bits of a frame with payload length `l` (R20, stage 1). -/
def codedBits (l : Nat) : Nat := 32 + 16 * (12 + l)

/-- A: airtime in microseconds (R20, stages 2 and 3). -/
def ChannelSettings.airtime (c : ChannelSettings) (l : Nat) : Nat :=
  c.preamble * 1000 + divUp (codedBits l * 1000000) (rateBps c.rate)

/-- S: slots, the credit a frame costs (R20, stage 4). -/
def ChannelSettings.slots (c : ChannelSettings) (l : Nat) : Nat :=
  divUp (c.airtime l) 5000

/-- A frame of payload length `l` fits the channel (R21). -/
def ChannelSettings.fits (c : ChannelSettings) (l : Nat) : Bool :=
  decide (c.slots l * 5 ≤ c.tot)

/-- The largest length up to `l` that fits. -/
def ChannelSettings.lmaxFrom (c : ChannelSettings) : Nat → Option Nat
  | 0 => if c.fits 0 then some 0 else none
  | l + 1 => if c.fits (l + 1) then some (l + 1) else c.lmaxFrom l

/-- L_max: the largest payload length from 0 to 64 that fits, or none (R21). -/
def ChannelSettings.lmax (c : ChannelSettings) : Option Nat := c.lmaxFrom 64

/-- An L_max with which a channel can be enabled: at least 24 (R21). -/
def usableLmax (l : Option Nat) : Bool :=
  match l with
  | some v => decide (24 ≤ v)
  | none => false

/-- Offset of a channel's settings block in the configuration record (Table 11-8). -/
def settingsOffset (c : Chan) : Nat := 0x010 + 16 * c.val

/-- Fields of a settings block that a CHANNEL_SET reads: all but enable at START (R17). -/
def settingsFields : Nat := 7

/-- The settings a channel's settings block gives, each value in range, with the replacements to log (R17). C_max is
first brought into range, and then raised to TOT / 5 when it lies below that; each is a replacement (log 21). -/
def State.channelSettings (s : State) (c : Chan) : ChannelSettings × List ClampEntry :=
  let f := fun off n => s.field .config (settingsOffset c + off) n
  let src := ClampSource.channel c
  let rate := clampTo src 0x0 0 2 (f 0x0 1)
  let preamble := clampTo src 0x1 20 250 (f 0x1 2)
  let tot := clampTo src 0x3 100 1000 (f 0x3 2)
  let duty := clampTo src 0x5 5 100 (f 0x5 1)
  let cmax := clampTo src 0x6 20 2000 (f 0x6 2)
  let raised := max cmax.1 (tot.1 / 5)
  let raise : List ClampEntry :=
    if raised = cmax.1 then [] else [{ source := src, setting := 0x6, found := cmax.1, used := raised }]
  let rw := clampOrDefault src 0x8 100 5000 1500 (f 0x8 2)
  let stuck := clampOrDefault src 0xA 1 60 10 (f 0xA 1)
  ({ rate := rate.1, preamble := preamble.1, tot := tot.1, duty := duty.1, cmax := raised,
     replyWait := rw.1, stuckLimit := stuck.1 },
   rate.2 ++ preamble.2 ++ tot.2 ++ duty.2 ++ cmax.2 ++ raise ++ rw.2 ++ stuck.2)

/-- The settings are applied to the port, with its L_max, a full credit and an empty accumulator (R23, R37, R45). -/
def Port.applySettings (p : Port) (c : ChannelSettings) : Port :=
  { p with settings := some c, lmax := c.lmax, credit := c.cmax, acc := 0 }

/-- An enabled port: in service and not closing (R18). -/
def Port.enabled (p : Port) : Bool := p.state.inService && !p.closing

/-- Whether any port is enabled. -/
def State.anyEnabled (s : State) : Bool :=
  (List.finRange 4).any fun c => (s.port c).enabled

/-- The common segment limit: the smallest L_max over the enabled ports, 64 when none is enabled (R22). -/
def State.segmentLimit (s : State) : Nat :=
  (List.finRange 4).foldl
    (fun acc c => if (s.port c).enabled then min acc (((s.port c).lmax).getD 64) else acc) 64

/-- The Exchange Interface recomputes the common segment limit (R22). -/
def State.recomputeLimit (s : State) : State :=
  { s with xif := { s.xif with commonLimit := s.segmentLimit } }

/-- Reply wait of a channel, in microseconds (Table 2-1). -/
def State.replyWait (s : State) (c : Chan) : Nat :=
  (((s.port c).settings.map ChannelSettings.replyWait).getD 0) * 1000

end Sys2Proof.Machine
end

