-- ==== Sys2Proof/Machine/Records.lean ====
section
/-! DEFINITION. What the part writes into the records and status blocks of the exchange area (R41, R74, R106, R132,
R171, R175, R188, Tables 11-8 to 11-11). -/

namespace Sys2Proof.Machine

/-! ## Channel status (R41, Table 11-9) -/

/-- The signed 16-bit field of a credit. -/
def creditBytes (credit : Int) : List Byte :=
  beBytes 2 (BitVec.ofInt 16 credit).toNat

/-- Offset of a channel's status block in the configuration record (Table 11-8). -/
def statusOffset (c : Chan) : Nat := 0x050 + 32 * c.val

/-- The fields of a channel status block. -/
def Port.statusFields (p : Port) : List (Nat × List Byte) :=
  [(0x0, [byteOf p.state.num]),
   (0x1, [byteOf (bit p.closing * 2 + bit p.stuck)]),
   (0x2, creditBytes p.credit),
   (0x4, [indexByte p.lmax])]
  ++ (List.finRange 8).map fun k => (0x5 + 2 * k.val, beBytes 2 (p.stats[k.val]).toNat)

/-- A port's channel status block is written (R41). -/
def State.writeChannelStatus (s : State) (c : Chan) : State :=
  s.writeFields .config (statusOffset c) (s.port c).statusFields

/-! ## Unit records (R74, Table 11-10) -/

/-- The packed byte 0F of a unit record. -/
def UnitCtx.flagByte (x : UnitCtx) : Byte :=
  byteOf (bit x.registered * 128 + bit x.lockout * 64 + bit x.codeLock * 32 + x.failures % 4 * 8 + x.resync.num * 2)

/-- The part fields of a unit record (R74), the expected code counter apart. -/
def UnitCtx.partFields (x : UnitCtx) : List (Nat × List Byte) :=
  [(0x0F, [x.flagByte]),
   (0x10, [byteOf x.reach.num]),
   (0x11, [indexByte (x.current.map Fin.val)]),
   (0x12, timeBytes 4 x.lastHeard)]
  ++ (List.finRange 21).map fun k => (0x16 + 2 * k.val, beBytes 2 (x.stats[k.val]).toNat)

/-- A unit record's part fields are written (R74). -/
def State.writeUnit (s : State) (u : UnitIx) : State :=
  s.writeFields .units (64 * u.val) (s.unit u).partFields

/-- A unit record's counter field is written with the expected code counter (R150). -/
def State.writeCounter (s : State) (u : UnitIx) : State :=
  s.writeField .units (64 * u.val + 0x0A) (beBytes 4 (s.unit u).counter.toNat)

/-! ## Worker records (R171, Table 11-10) -/

/-- The last position, one field of latitude and longitude; 0 when there is none (R171, log 37). -/
def WorkerCtx.positionBytes (x : WorkerCtx) : List Byte :=
  match x.position with
  | some fix => beBytes 4 fix.1.toNat ++ beBytes 4 fix.2.toNat
  | none => List.replicate 8 0

/-- The part fields of a worker record, the open-permit byte apart. -/
def WorkerCtx.partFields (x : WorkerCtx) : List (Nat × List Byte) :=
  [(0x06, [byteOf (x.state.num * 32 + x.origin.num * 8 + bit x.dutyBefore * 4 + bit x.position.isSome * 2)]),
   (0x08, [x.escCount]),
   (0x09, [byteOf x.interval]),
   (0x0A, beBytes 2 (x.lead * 2 ^ 11 + x.grace * 2 ^ 5 + x.escalation)),
   (0x0C, beBytes 3 ((x.bound.getD 0) % 1024 * 2 ^ 14 + (x.noteUnit.getD 0) % 1024 * 2 ^ 4)),
   (0x0F, timeBytes 3 x.deadline),
   (0x12, timeBytes 3 x.timer),
   (0x15, timeBytes 3 x.lastCheckin),
   (0x18, x.positionBytes)]

/-- A worker record's part fields are written (R171). -/
def State.writeWorker (s : State) (w : WorkerIx) : State :=
  s.writeFields .workers (32 * w.val) (s.worker w).partFields

/-- The open-permit byte of a worker record is written by the Permit Engine at a change of binding (R171, R188) and at
HALT with the other part fields (R179); FF hex for none. -/
def State.writeOpenPermit (s : State) (w : WorkerIx) : State :=
  s.writeField .workers (32 * w.val + 0x07) [indexByte ((s.worker w).openPermit.map Fin.val)]

/-! ## Permit records (R132, Table 11-11) -/

/-- The last refusal, one field of note code and step number; with none the note code is 0 and the step number is written
as none (R188, log 37). -/
def PermitCtx.refusalBytes (x : PermitCtx) : List Byte :=
  [byteOf ((x.lastRefusal.map fun r => r.1.num).getD 0), indexByte (x.lastRefusal.map Prod.snd)]

/-- The part fields of a permit record. A step beyond the step count is written PENDING (log 37). -/
def PermitCtx.partFields (x : PermitCtx) : List (Nat × List Byte) :=
  [(0xA0, [byteOf x.state.num]),
   (0xA1, [byteOf x.current]),
   (0xA2, [byteOf (bit x.headerSent * 128 + x.source.num * 32)]),
   (0xA3, x.refusalBytes)]
  ++ (List.range 16).map fun k => (0xA5 + k, [byteOf (((x.steps[k]?).map fun st => st.state.num).getD 0)])

/-- A permit record's part fields are written (R132). -/
def State.writePermit (s : State) (p : PermitIx) : State :=
  s.writeFields .permits (256 * p.val) (s.permit p).partFields

/-! ## Order records (R106, Table 11-11) -/

/-- Expiry remaining: for a QUEUED or HELD order with a deadline, the deadline less the current second; else 0 (R106). -/
def OrderCtx.expiryRemaining (x : OrderCtx) (second : Nat) : Nat :=
  match x.state, x.deadline with
  | .queued, some d => d - second
  | .held, some d => d - second
  | _, _ => 0

/-- A reply in two bytes: decision, 0 for none, and reason, written 0 when there is no reply (R188, log 37). -/
def replyBytes (r : Option Reply) : List Byte :=
  match r with
  | some r => [byteOf r.decision.num, byteOf r.reason]
  | none => [0, 0]

/-- The part fields of an order record. The segment body size is written 0 when unset, as Table 11-11 has it of the segment
count (DEDUCED, log 37). -/
def OrderCtx.partFields (x : OrderCtx) (second : Nat) : List (Nat × List Byte) :=
  [(0x00A, [byteOf x.state.num]),
   (0x00B, [byteOf x.failure.num]),
   (0x00C, beBytes 4 x.stamp),
   (0x010, [byteOf (x.segSize.getD 0)]),
   (0x011, [byteOf (x.segCount.getD 0)]),
   (0x012, [byteOf x.acked]),
   (0x013, [byteOf (cancellingNum x.cancelling)]),
   (0x014, replyBytes x.earlyReply),
   (0x016, replyBytes x.reply),
   (0x018, beBytes 4 (x.expiryRemaining second))]

/-- An order record's part fields are written (R106). -/
def State.writeOrder (s : State) (o : OrderIx) : State :=
  s.writeFields .orders (512 * o.val) ((s.order o).partFields s.second)

/-! ## Status fields of the configuration record (R106, R132, R171, R175, Table 11-8) -/

/-- The part, order, permit and supervision status fields. -/
def State.statusFields (s : State) : List (Nat × List Byte) :=
  [(0x0D0, beBytes 2 s.xif.busRetries.toNat),
   (0x0D2, beBytes 2 s.odp.strayReplies.toNat),
   (0x0D4, beBytes 2 s.odp.strayBulletins.toNat),
   (0x0D6, beBytes 2 s.pen.strayConfirmations.toNat),
   (0x0D8, beBytes 2 s.pen.notesLost.toNat),
   (0x0DA, beBytes 2 s.lws.strayCheckins.toNat),
   (0x0DC, beBytes 2 s.lws.strayStanddowns.toNat),
   (0x0DE, beBytes 2 s.lws.refusedStanddowns.toNat)]

/-- The status fields are written. -/
def State.writeStatus (s : State) : State :=
  s.writeFields .config 0 s.statusFields

/-- The unit records of the registered contexts are written (R74). -/
def State.writeRegisteredUnits (s : State) : State :=
  forAll (fun u s => if (s.unit u).registered then s.writeUnit u else s) s

/-- Every channel status block is written (R41). -/
def State.writeChannelStatuses (s : State) : State :=
  forAll (fun c s => s.writeChannelStatus c) s

end Sys2Proof.Machine
end

