-- ==== Sys2Proof/Machine/Queues.lean ====
section
/-! DEFINITION. Transmit queues and offer lists (R25, R27, R64): how frames join them, are offered, and leave them
without being sent. -/

namespace Sys2Proof.Machine

/-! ## The port's side (R25, R27) -/

/-- The answer to an offer: an enabled port accepts a SAFETY frame when its queue holds fewer than 32 entries and a frame
of another class when it holds fewer than 24; else no room (R25). -/
def Port.accepts (p : Port) (k : TrafficClass) : Bool :=
  p.enabled && decide (p.queue.length < if k = .safety then 32 else 24)

/-- The answers to a take-back (R27). -/
inductive TakeBackAnswer
  | taken
  | onAir
  | absent
deriving DecidableEq, Repr

/-- A port takes back the frame with a message reference, unless it is on air or not in the queue (R27). -/
def Port.takeBack (p : Port) (ref : Nat) : TakeBackAnswer × Port :=
  (match p.queue.find? fun e => e.ref == ref with
    | none => .absent
    | some e => if e.started then .onAir else .taken,
   { p with queue := p.queue.filter fun e => e.started || e.ref != ref })

/-- A frame leaves whatever offer list it stands on, and is taken back from whatever port has accepted it; a frame on
air finishes (R27, R64). -/
def State.withdraw (s : State) (ref : Nat) : State :=
  forAll (fun c s =>
    (s.setOffer c ((s.offer c).filter fun it => it.frame.ref != ref)).modPort c fun p => (p.takeBack ref).2) s

/-! ## Offer lists (R64) -/

/-- Place among frames that join a list in the same step: order of unit context index; a bulletin, which has no unit,
joins alone (log 10). -/
def TxEntry.unitRank (e : TxEntry) : Nat := (e.unit.map Fin.val).getD 96

/-- A frame joins an offer list behind every frame that joined earlier, and, among those of the same step, behind every
frame of a unit context with the same or a lower index (R64). -/
def joinList (it : OfferItem) : List OfferItem → List OfferItem
  | [] => [it]
  | x :: xs =>
    if x.moment = it.moment ∧ it.frame.unitRank < x.frame.unitRank then it :: x :: xs else x :: joinList it xs

/-- A frame joins a channel's offer list at this moment. -/
def State.join (s : State) (c : Chan) (e : TxEntry) : State :=
  s.setOffer c (joinList { frame := e, moment := s.ule.moment } (s.offer c))

/-- The frame of a list to offer first: highest class present, and within the class the one that joined first (R64). -/
def firstOffered (l : List OfferItem) : Option OfferItem :=
  TrafficClass.ranking.findSome? fun k => l.find? fun it => it.frame.kind.cls == k

/-- The outstanding entry with a message reference, changed. -/
def UnitCtx.modEntry (x : UnitCtx) (ref : Nat) (f : OutEntry → OutEntry) : UnitCtx :=
  { x with out := x.out.map fun e => if e.ref = ref then f e else e }

/-- The outstanding entry of a queued frame, changed; a due-set frame and a bulletin have none. -/
def State.modEntryOf (s : State) (e : TxEntry) (f : OutEntry → OutEntry) : State :=
  match e.unit with
  | some u => s.modUnit u fun x => x.modEntry e.ref f
  | none => s

/-- An accepted frame leaves the list, joins the port's queue as its youngest entry, and becomes QUEUED (R25, R64). -/
def State.acceptOffer (s : State) (c : Chan) (it : OfferItem) : State :=
  let s := s.setOffer c ((s.offer c).filter fun x => x.frame.ref != it.frame.ref)
  let s := s.modPort c fun p => { p with queue := p.queue ++ [it.frame] }
  s.modEntryOf it.frame fun e => { e with placement := .queued }

/-- The engine offers the frames of a list in turn and stops at the first answer of no room (R64). The first argument
bounds the number of frames, the length of the list. -/
def State.offerFrames (s : State) (c : Chan) : Nat → State
  | 0 => s
  | n + 1 =>
    match firstOffered (s.offer c) with
    | none => s
    | some it => if (s.port c).accepts it.frame.kind.cls then (s.acceptOffer c it).offerFrames c n else s

/-- A channel's offer list is offered to its port. -/
def State.offerChannel (s : State) (c : Chan) : State :=
  s.offerFrames c (s.offer c).length

/-- Every channel's list is offered to its port. -/
def State.offerAll (s : State) : State :=
  forAll (fun c s => s.offerChannel c) s

/-! ## Frames of the due set (R49, R69) -/

/-- Where a kind is placed. -/
def DueSet.placedAt (d : DueSet) : DueKind → Option Placed
  | .resync => d.placedResync
  | .alarmNote => d.placedAlarm
  | .prompt => d.placedPrompt
  | .poll => d.placedPoll
  | .report => d.placedReport

/-- Mark where a kind is placed, or that it is not. -/
def DueSet.setPlaced (d : DueSet) (k : DueKind) (v : Option Placed) : DueSet :=
  match k with
  | .resync => { d with placedResync := v }
  | .alarmNote => { d with placedAlarm := v }
  | .prompt => { d with placedPrompt := v }
  | .poll => { d with placedPoll := v }
  | .report => { d with placedReport := v }

/-- Whether a request of a kind is present (R49). -/
def DueSet.has (d : DueSet) : DueKind → Bool
  | .resync => d.resync
  | .alarmNote => !d.alarm.isEmpty
  | .prompt => !d.prompt.isEmpty
  | .poll => d.poll
  | .report => d.report

/-- Whether any request is present. -/
def DueSet.any (d : DueSet) : Bool :=
  DueKind.order.any fun k => d.has k

/-- A kind is marked not placed when the frame leaving is the one placed for it (R68, R69). -/
def DueSet.unplace (d : DueSet) (k : DueKind) (ref : Nat) : DueSet :=
  if (d.placedAt k).map Placed.ref = some ref then d.setPlaced k none else d

/-- A unit's due set, changed. -/
def State.modDue (s : State) (u : UnitIx) (f : DueSet → DueSet) : State :=
  s.modUnit u fun x => { x with due := f x.due }

/-- A placed due-set frame is taken back or removed from its offer list and marked not placed; the request stays due
(R80, R83). -/
def State.unplaceDue (s : State) (u : UnitIx) (k : DueKind) : State :=
  match (s.unit u).due.placedAt k with
  | some pl => (s.withdraw pl.ref).modDue u fun d => d.setPlaced k none
  | none => s

/-- Several kinds taken back and marked not placed. -/
def State.unplaceDues (s : State) (u : UnitIx) (ks : List DueKind) : State :=
  ks.foldl (fun s k => s.unplaceDue u k) s

/-- Every kind placed on a channel that satisfies a condition is taken back and marked not placed. -/
def State.unplaceDueWhere (s : State) (u : UnitIx) (onChan : Chan → Bool) : State :=
  DueKind.order.foldl (fun s k =>
    match (s.unit u).due.placedAt k with
    | some pl => if onChan pl.chan then s.unplaceDue u k else s
    | none => s) s

/-- A frame of a kind is placed on a channel's offer list when its request is present and the kind is not placed
(R69). -/
def State.placeDue (s : State) (u : UnitIx) (k : DueKind) (c : Chan) : State :=
  let d := (s.unit u).due
  if d.has k && (d.placedAt k).isNone then
    let ref := s.ule.nextRef
    let s := s.bumpRef.modDue u fun d => d.setPlaced k (some { chan := c, ref := ref })
    s.join c { kind := k.frame, unit := some u, ref := ref, attempt := 0, payload := [], started := false }
  else s

/-- Several kinds placed on one channel, in the kind order of R64. -/
def State.placeDues (s : State) (u : UnitIx) (ks : List DueKind) (c : Chan) : State :=
  ks.foldl (fun s k => s.placeDue u k c) s

/-! ## Hand-back (R68, R105) -/

/-- A frame handed back by a port, or left on the offer list of a channel that leaves service, is settled (R68): an
outstanding entry becomes UNPLACED with its repeat mark cleared, a due-set kind is marked not placed, and a bulletin is
discarded and counted (R105). -/
def State.settleFrame (s : State) (e : TxEntry) : State :=
  match e.unit with
  | none =>
    { s with odp := { s.odp with strayBulletins := satInc s.odp.strayBulletins } }
  | some u =>
    match e.kind.due with
    | some k => s.modDue u fun d => d.unplace k e.ref
    | none => s.modUnit u fun x =>
        x.modEntry e.ref fun o => { o with placement := .unplaced, repeatMark := false }

/-- Frames settled in turn, oldest first. -/
def State.settleFrames (s : State) (es : List TxEntry) : State :=
  es.foldl State.settleFrame s

end Sys2Proof.Machine
end

