-- ==== Sys2Proof/Machine/Orders.lean ====
section
/-! DEFINITION. The Order Dispatcher: order queues, the start of sending, what it gives at a pull, how it takes
confirmations, replies and the withdraw path (chapter 5). -/

namespace Sys2Proof.Machine

/-- How the Unit Link Engine confirms a pulled message to its producer (R97, R116). -/
inductive Confirmation
  | acknowledged
  | unsent
  | dropped
deriving DecidableEq, Repr

/-- A message given at a pull: the producer's reference, the kind and the payload (R65, R96, R115). -/
structure Message where
  producer : ProducerRef
  kind : FrameKind
  payload : List Byte
deriving DecidableEq, Repr

/-! ## Queues (R93) -/

/-- Queue order: priority highest first, then post stamp lowest first (R93). -/
def OrderCtx.before (x y : OrderCtx) : Bool :=
  decide (y.priority < x.priority) || (x.priority == y.priority && decide (x.stamp < y.stamp))

/-- An order put into its place of a queue, behind one of equal priority and stamp (R93, log 47). -/
def State.insertOrder (s : State) (o : OrderIx) : List OrderIx → List OrderIx
  | [] => [o]
  | q :: qs => if (s.order o).before (s.order q) then o :: q :: qs else q :: s.insertOrder o qs

/-- The order queue of the unit with an address: its live orders, in queue order (R93). -/
def State.orderQueue (s : State) (address : Nat) : List OrderIx :=
  (List.finRange 256).foldl
    (fun q o => if (s.order o).state.live && (s.order o).unit == address then s.insertOrder o q else q) []

/-- The unit's SENDING order, when it has one (R93). -/
def State.sendingOrder (s : State) (address : Nat) : Option OrderIx :=
  (List.finRange 256).find? fun o => (s.order o).state == .sending && (s.order o).unit == address

/-- The largest segment payload among the orders now SENDING: segment body size plus 2, or 0 (R95). -/
def State.largestSegment (s : State) : Nat :=
  (List.finRange 256).foldl
    (fun acc o => if (s.order o).state == .sending then max acc (((s.order o).segSize.getD 0) + 2) else acc) 0

/-- The state of the permit a number names; a number above 63 names none, which is as FREE. -/
def State.permitStateOf (s : State) (n : Nat) : PermitState :=
  match indexIn 64 n with
  | some p => (s.permit p).state
  | none => .free

/-- An order that names no permit, or a permit in HOLDING (R96). -/
def State.permitAllows (s : State) (x : OrderCtx) : Bool :=
  match x.permit with
  | none => true
  | some n => s.permitStateOf n == .holding

/-! ## Start of sending (R95) -/

/-- Entry to SENDING: no deadline, the segment body size from the common segment limit as it stands, the segment count,
the counts at 0; the engine is told, and the record written (R95). -/
def State.enterSending (s : State) (o : OrderIx) : State :=
  let size := s.xif.commonLimit - 2
  let s := s.modOrder o fun x => { x with
    state := .sending, deadline := none, segSize := some size,
    segCount := some (if x.bodyLen = 0 then 1 else divUp x.bodyLen size), nextSeg := 0, acked := 0 }
  (s.tellDue (s.order o).unit).writeOrder o

/-- The start of sending for a unit: with no SENDING order and a port enabled, its first QUEUED order becomes SENDING;
HELD orders are passed over (R95). -/
def State.startSending (s : State) (address : Nat) : State :=
  if s.anyEnabled && (s.sendingOrder address).isNone then
    match (s.orderQueue address).find? fun o => (s.order o).state == .queued with
    | some o => s.enterSending o
    | none => s
  else s

/-- The start of sending for every registered unit, at CHANNEL_ENABLE and when the mode becomes RUNNING at the end of START
(R95, R178). DESIGN CHOICE (log 72, unsafe): the units are taken in unit index order, 0 to 95, after the searches of R88 and
the ENABLED notice at CHANNEL_ENABLE, and after the STARTED notice and before the searches of R84 at START; no rule orders
them so. -/
def State.startSendingAll (s : State) : State :=
  forAll (fun u s => if (s.unit u).registered then s.startSending (s.unit u).address else s) s

/-! ## Given at a pull (R95, R96, R12) -/

/-- Payload of segment `k`: order index; segment number and last-segment flag; the body bytes (R12, R95, Table 11-2). -/
def OrderCtx.segment (x : OrderCtx) (o : OrderIx) (k : Nat) : List Byte :=
  let size := x.segSize.getD 0
  [byteOf o.val, byteOf (k * 2 + bit (k + 1 == x.segCount.getD 0))] ++ (x.body.drop (k * size)).take size

/-- What the Order Dispatcher would give at a pull for the unit, with the context afterwards (R96). -/
def State.orderNext (s : State) (address : Nat) : Option (OrderIx × Message × OrderCtx) :=
  match s.sendingOrder address with
  | none => none
  | some o =>
    let x := s.order o
    match x.cancelling with
    | some _ =>
      if x.cancel = .due then
        some (o, { producer := .orderCancel o, kind := .orderCancel, payload := [byteOf o.val] },
          { x with cancel := .pulled })
      else none
    | none =>
      if s.permitAllows x && decide (x.nextSeg < x.segCount.getD 0) then
        some (o, { producer := .orderSegment o x.nextSeg, kind := .orderSeg, payload := x.segment o x.nextSeg },
          { x with nextSeg := x.nextSeg + 1 })
      else none

/-- The Order Dispatcher gives one message at a pull, or none (R96). -/
def State.orderGive (s : State) (address : Nat) : Option Message × State :=
  match s.orderNext address with
  | some (o, m, x) => (some m, s.setOrder o x)
  | none => (none, s)

/-! ## Confirmations and replies (R97, R99, R102) -/

/-- ACCEPTED or DECLINED, as a decision makes the order (R99). -/
def Decision.orderState : Decision → OrderState
  | .accept => .accepted
  | .decline => .declined

/-- A reply applied to an order: stored, the order ACCEPTED or DECLINED (R99). -/
def OrderCtx.applyReply (x : OrderCtx) (r : Reply) : OrderCtx :=
  { x with reply := some r, state := r.decision.orderState }

/-- Every segment is acknowledged: the order is DELIVERED and, in the same change, takes its early reply or, when no
reply is wanted, ACCEPTED; the notice DELIVERED names the state entered (R97, Table 5-5, log 29). DESIGN CHOICE (log 65, unsafe): an order
ACCEPTED with no reply keeps the reply that START restored with it, if a record changed by the server held one. -/
def State.deliver (s : State) (o : OrderIx) : State :=
  let x := s.order o
  let y : OrderCtx :=
    match x.earlyReply with
    | some r => x.applyReply r
    | none => if x.replyWanted then { x with state := .delivered } else { x with state := .accepted }
  let s := (s.setOrder o y).raise (.delivered o x.unit y.state)
  let s := match x.earlyReply with
    | some r => s.raise (.replied o r)
    | none => s
  (s.writeOrder o).startSending x.unit

/-- An acknowledged segment (R97). -/
def State.orderAckSegment (s : State) (o : OrderIx) : State :=
  let x := s.order o
  if x.state = .sending then
    let s := s.setOrder o { x with acked := x.acked + 1 }
    if some (x.acked + 1) = x.segCount ∧ x.cancelling = none then s.deliver o else s.writeOrder o
  else s

/-- An acknowledged ORDER_CANCEL ends the withdraw path in its end state (R102). -/
def State.orderAckCancel (s : State) (o : OrderIx) : State :=
  let x := s.order o
  if x.state = .sending then
    match x.cancelling with
    | some .withdrawn =>
      (((s.setOrder o { x with state := .withdrawn }).raise (.withdrawn o x.unit x.acked)).writeOrder o).startSending
        x.unit
    | some .failed =>
      (((s.setOrder o { x with state := .failed, failure := .permitGone }).raise
        (.failed o x.unit .permitGone)).writeOrder o).startSending x.unit
    | none => s
  else s

/-- A segment confirmed unsent: next segment falls back to it (R97). -/
def State.orderUnsentSegment (s : State) (o : OrderIx) (k : Nat) : State :=
  s.modOrder o fun x => if x.state = .sending then { x with nextSeg := min x.nextSeg k } else x

/-- An ORDER_CANCEL confirmed unsent returns to DUE (R97, R102). -/
def State.orderUnsentCancel (s : State) (o : OrderIx) : State :=
  s.modOrder o fun x => if x.state = .sending then { x with cancel := .due } else x

/-- The Order Dispatcher takes an accepted ORDER_REPLY from a unit (R99). An index that names no order of the unit in
DELIVERED or SENDING is a stray. -/
def State.orderReply (s : State) (sender : Nat) (o : OrderIx) (r : Reply) : State :=
  let x := s.order o
  if x.unit = sender ∧ x.state = .delivered then
    ((s.setOrder o (x.applyReply r)).raise (.replied o r)).writeOrder o
  else if x.unit = sender ∧ x.state = .sending then
    (s.setOrder o { x with earlyReply := some r }).writeOrder o
  else
    { s with odp := { s.odp with strayReplies := satInc s.odp.strayReplies } }

/-! ## The withdraw path (R101, R103) -/

/-- A SENDING order that is not yet cancelling enters the withdraw path with an end state (R101). -/
def State.enterWithdraw (s : State) (o : OrderIx) (e : EndState) : State :=
  let x := s.order o
  if x.state = .sending ∧ x.cancelling = none then
    (s.setOrder o { x with cancelling := some e, cancel := .due }).tellDue x.unit
  else s

/-- A QUEUED or HELD order waits in its queue, and may still expire (R100). -/
def OrderCtx.waits (x : OrderCtx) : Bool := x.state == .queued || x.state == .held

/-- A waiting order becomes EXPIRED, leaves its queue, raises its notice and is written (R100). -/
def State.expire (s : State) (o : OrderIx) : State :=
  let x := s.order o
  ((s.setOrder o { x with state := .expired }).raise (.expired o x.unit x.state)).writeOrder o

/-- A QUEUED or HELD order becomes FAILED, leaves its queue, raises its notice and is written (R103). -/
def State.failOrder (s : State) (o : OrderIx) (r : FailReason) : State :=
  let x := s.order o
  ((s.setOrder o { x with state := .failed, failure := r }).raise (.failed o x.unit r)).writeOrder o

end Sys2Proof.Machine
end

