-- ==== Sys2Proof/Machine/Permits.lean ====
section
/-! DEFINITION. The Permit Engine's messages: message-due, the note queue, what it gives at a pull, the interlock at the
pull, and how it takes confirmations (R109 to R117, R134, R137). -/

namespace Sys2Proof.Machine

/-! ## The context -/

/-- Step k of a permit, k from 1 (R111). -/
def PermitCtx.step (x : PermitCtx) (k : Nat) : Option Step :=
  if k = 0 then none else x.steps[k - 1]?

/-- The state of step k; PENDING where there is no such step. -/
def PermitCtx.stepState (x : PermitCtx) (k : Nat) : StepState :=
  ((x.step k).map Step.state).getD .pending

/-- Step k with another state. -/
def PermitCtx.setStep (x : PermitCtx) (k : Nat) (st : StepState) : PermitCtx :=
  { x with steps := (x.steps.zipIdx 1).map fun p => if p.2 = k then { p.1 with state := st } else p.1 }

/-- Whether a step can put voltage on its section; a flag other than 0 counts as set (log 26). -/
def Step.isEnergising (st : Step) : Bool := st.energising != 0

/-- Message-due: header due, or a note not yet given, or the current step DUE (R112). -/
def PermitCtx.messageDue (x : PermitCtx) : Bool :=
  x.headerDue || x.notes.any (fun nt => !nt.given) || x.stepState x.current == .due

/-- A permit context changes; when message-due turns from no to yes the engine is told (R112). -/
def State.modPermit (s : State) (p : PermitIx) (f : PermitCtx → PermitCtx) : State :=
  let x := s.permit p
  let y := f x
  let s := s.setPermit p y
  if !x.messageDue && y.messageDue then s.tellDue y.crew else s

/-- A note is queued unless the queue holds four, counting those given; a fifth is lost and counted (R112, R117). -/
def State.queueNote (s : State) (p : PermitIx) (why : NoteCode) (step subject : Nat) : State :=
  if (s.permit p).notes.length < 4 then
    s.bumpRef.modPermit p fun x => { x with
      notes := x.notes ++ [{ id := s.ule.nextRef, code := why, step := step, subject := subject, given := false }] }
  else
    { s with pen := { s.pen with notesLost := satInc s.pen.notesLost } }

/-! ## Payloads (R13, Table 11-2) -/

/-- PERMIT_HDR. -/
def PermitCtx.headerPayload (x : PermitCtx) (p : PermitIx) : List Byte :=
  [byteOf p.val, byteOf x.n, byteOf x.h, byteOf x.sections.length] ++ x.sections.map byteOf
  ++ [byteOf x.workers.length] ++ x.workers.map byteOf

/-- PERMIT_STEP of step k. -/
def Step.payload (st : Step) (p : PermitIx) (k : Nat) : List Byte :=
  [byteOf p.val, byteOf k, st.action] ++ beBytes 4 st.device.toNat ++ [byteOf st.sect, st.energising]

/-- PERMIT_NOTE. -/
def Note.payload (nt : Note) (p : PermitIx) : List Byte :=
  [byteOf p.val, byteOf nt.step, byteOf nt.subject, byteOf nt.code.num]

/-! ## The interlock (R137, R145) -/

/-- The lowest-indexed permit in HOLDING or SURRENDER_PENDING that names a section (R137). -/
def State.holderOf (s : State) (sect : Nat) : Option PermitIx :=
  (List.finRange 64).find? fun p => (s.permit p).state.holds && (s.permit p).sections.contains sect

/-- The section on which a frame orders an energising step; none for any other frame (Table 11-2, R137). -/
def energisedSection (kind : FrameKind) (payload : List Byte) : Option Nat :=
  if kind = .permitStep ∧ byteAt payload 8 ≠ 0 then some (byteAt payload 7).toNat else none

/-- The frame of an energising step on a section that is held: no transmission of it begins (R137). -/
def State.frameHeld (s : State) (kind : FrameKind) (payload : List Byte) : Bool :=
  ((energisedSection kind payload).map fun k => decide (0 < s.hold k)).getD false

/-- A current energising step becomes INTERLOCKED, with its notice and the record written; the cause is PULL or REVOKED
(R137, R139, R145). -/
def State.interlockStep (s : State) (p : PermitIx) (k sect : Nat) (revoked : Bool) : State :=
  let s := s.modPermit p fun x => x.setStep k .interlocked
  (s.raise (.interlocked p k sect (s.hold sect) (s.holderOf sect) revoked)).writePermit p

/-! ## Given at a pull (R115) -/

/-- What one permit gives when the pull reaches it, in the order header, oldest note not given, current step DUE; a DUE
energising step whose section has holds becomes INTERLOCKED and nothing is given from it (R115, R137). -/
def State.permitGiveFrom (s : State) (p : PermitIx) : Option Message × State :=
  let x := s.permit p
  if x.headerDue then
    (some { producer := .permitHeader p, kind := .permitHdr, payload := x.headerPayload p },
     s.setPermit p { x with headerDue := false, headerSent := true, inFlight := x.inFlight + 1 })
  else
    match x.notes.find? fun nt => !nt.given with
    | some nt =>
      (some { producer := .permitNote p nt.id, kind := .permitNote, payload := nt.payload p },
       s.setPermit p { x with
         notes := x.notes.map fun m => if m.id = nt.id then { m with given := true } else m
         inFlight := x.inFlight + 1 })
    | none =>
      match x.step x.current with
      | none => (none, s)
      | some st =>
        if st.state = .due then
          if st.isEnergising ∧ 0 < s.hold st.sect then
            (none, s.interlockStep p x.current st.sect false)
          else
            (some { producer := .permitStep p x.current, kind := .permitStep, payload := st.payload p x.current },
             ((s.setPermit p { x.setStep x.current .sent with inFlight := x.inFlight + 1 })).writePermit p)
        else (none, s)

/-- The permits of a crew unit in index order, down to the first that gives a message (R115). -/
def State.permitGiveList (s : State) (address : Nat) : List PermitIx → Option Message × State
  | [] => (none, s)
  | p :: ps =>
    if (s.permit p).crew = address then
      match s.permitGiveFrom p with
      | (some m, s') => (some m, s')
      | (none, s') => s'.permitGiveList address ps
    else s.permitGiveList address ps

/-- The Permit Engine gives one message at a pull for the unit with an address, or none (R115). -/
def State.permitGive (s : State) (address : Nat) : Option Message × State :=
  s.permitGiveList address (List.finRange 64)

/-- Whether the Permit Engine holds a due message for the unit (R84, R112; log 19). -/
def State.permitHolds (s : State) (address : Nat) : Bool :=
  (List.finRange 64).any fun p => (s.permit p).crew == address && (s.permit p).messageDue

/-! ## Confirmations (R116) -/

/-- Every confirmation lowers the in-flight count by 1 (R116). -/
def PermitCtx.confirmed (x : PermitCtx) : PermitCtx := { x with inFlight := x.inFlight - 1 }

/-- The header's confirmation (R116). The entry to ISSUED is announced to the Order Dispatcher and has no effect there
(R129). -/
def State.confirmHeader (s : State) (p : PermitIx) (c : Confirmation) : State :=
  let s := s.setPermit p (s.permit p).confirmed
  match c, (s.permit p).state with
  | .acknowledged, .posted =>
    ((s.modPermit p fun x => { x with state := .issued }).raise (.issued p (s.permit p).crew)).writePermit p
  | .unsent, .posted | .unsent, .issued =>
    s.modPermit p fun x => { x with headerSent := false, headerDue := true }
  | _, _ => s

/-- A note's confirmation (R116): acknowledged or dropped, it leaves the queue; unsent, it is marked not given. -/
def State.confirmNote (s : State) (p : PermitIx) (id : Nat) (c : Confirmation) : State :=
  let s := s.setPermit p (s.permit p).confirmed
  match c with
  | .acknowledged | .dropped => s.modPermit p fun x => { x with notes := x.notes.filter fun m => m.id != id }
  | .unsent => s.modPermit p fun x => { x with
      notes := x.notes.map fun m => if m.id = id then { m with given := false } else m }

/-- A step's confirmation (R116): unsent, a current SENT step of an ACTIVE or RESTORING permit returns to DUE. -/
def State.confirmStep (s : State) (p : PermitIx) (k : Nat) (c : Confirmation) : State :=
  let s := s.setPermit p (s.permit p).confirmed
  let x := s.permit p
  if c = .unsent ∧ (x.state = .active ∨ x.state = .restoring) ∧ k = x.current ∧ x.stepState k = .sent then
    (s.modPermit p fun x => x.setStep k .due).writePermit p
  else s

/-- A pulled message is confirmed to its producer (R97, R116). -/
def State.confirm (s : State) (r : ProducerRef) (c : Confirmation) : State :=
  match r with
  | .permitHeader p => s.confirmHeader p c
  | .permitNote p id => s.confirmNote p id c
  | .permitStep p k => s.confirmStep p k c
  | .orderSegment o k =>
    match c with
    | .acknowledged => s.orderAckSegment o
    | .unsent => s.orderUnsentSegment o k
    | .dropped => s
  | .orderCancel o =>
    match c with
    | .acknowledged => s.orderAckCancel o
    | .unsent => s.orderUnsentCancel o
    | .dropped => s

/-- After UNIT_RELEASE, the note queues of the unit's CLOSED and CANCELLED permits are cleared, with their in-flight
count 0 (R112). -/
def State.clearNotes (s : State) (address : Nat) : State :=
  forAll (fun p s =>
    let x := s.permit p
    if x.crew = address ∧ (x.state = .closed ∨ x.state = .cancelled) then
      s.setPermit p { x with notes := [], inFlight := 0 }
    else s) s

end Sys2Proof.Machine
end

