-- ==== Sys2Proof/Machine/Links.lean ====
section
/-! DEFINITION. The Unit Link Engine's downlink side: placing entries and due-set frames, site search, the unreachable
unit, resync, pulling, withholding and revoking (chapters 3 and 4, R98, R140). -/

namespace Sys2Proof.Machine

/-! ## Outstanding entries (R48) -/

/-- The queue entry that carries an outstanding entry's frame. -/
def OutEntry.frame (e : OutEntry) (u : UnitIx) : TxEntry :=
  { kind := e.kind, unit := some u, ref := e.ref, attempt := e.attempt, payload := e.payload, started := false }

/-- An attempt number one higher, staying at 7 (R48). -/
def nextAttempt (n : Nat) : Nat := min 7 (n + 1)

/-- An entry passes to WAITING on a channel because its message is queued again: its attempt number rises (R48). -/
def State.requeueEntry (s : State) (u : UnitIx) (c : Chan) (e : OutEntry) : State :=
  let again : OutEntry → OutEntry := fun e => { e with placement := .waiting, attempt := nextAttempt e.attempt }
  (s.modUnit u fun x => x.modEntry e.ref again).join c ((again e).frame u)

/-- The entries that satisfy a condition pass to WAITING on the current channel's offer list, in sequence order; while
the unit is not REACHABLE they are left UNPLACED instead (R48, R83). -/
def State.requeue (s : State) (u : UnitIx) (cond : OutEntry → Bool) : State :=
  let x := s.unit u
  match x.reach, x.current with
  | .reachable, some c => (x.out.filter cond).foldl (fun s e => s.requeueEntry u c e) s
  | _, _ => s.modUnit u fun x => { x with
      out := x.out.map fun e => if cond e then { e with placement := .unplaced } else e }

/-- Every WAITING entry leaves its offer list and every QUEUED entry is taken back; both become UNPLACED (R70, R80,
R83). -/
def State.pullBack (s : State) (u : UnitIx) : State :=
  let held : OutEntry → Bool := fun e => e.placement == .waiting || e.placement == .queued
  let s := ((s.unit u).out.filter held).foldl (fun s e => s.withdraw e.ref) s
  s.modUnit u fun x => { x with out := x.out.map fun e => if held e then { e with placement := .unplaced } else e }

/-- Entries leave the list, their frames with them unless on air; a frame on air finishes (R51, R56, R86). -/
def State.removeEntries (s : State) (u : UnitIx) (es : List OutEntry) : State :=
  let s := es.foldl (fun s e => s.withdraw e.ref) s
  s.modUnit u fun x => { x with out := x.out.filter fun e => !(es.any fun r => r.ref == e.ref) }

/-- The producers of entries are told, in sequence order. -/
def State.confirmAll (s : State) (es : List OutEntry) (c : Confirmation) : State :=
  es.foldl (fun s e => s.confirm e.producer c) s

/-- The timer is stopped when resync pending is NO; while a resync runs it is timing that (R83, R98). -/
def UnitCtx.stopTimerIfTrusted (x : UnitCtx) : UnitCtx :=
  if x.resync = .no then { x with timer := .stopped } else x

/-- A roam stops the timer when resync pending is NO, until a tx-done of a sequenced frame on the new channel (R80; log 46
for a roam while a resync runs). -/
def UnitCtx.stopTimerAtRoam (x : UnitCtx) : UnitCtx :=
  if x.resync = .no then { x with timer := .roamed } else x

/-! ## Blind rounds (R87) -/

/-- The channel a unit is looked for first: the current channel, for which the search hint stands in when it is none
(R78). -/
def UnitCtx.lastKnown (x : UnitCtx) : Option Chan := x.current.orElse fun _ => x.hint

/-- The blind channel: the current channel, or the search hint when that is none, when its port is enabled, else the
lowest-numbered enabled channel (R78, R87). -/
def State.blindChannel (s : State) (u : UnitIx) : Option Chan :=
  ((s.unit u).lastKnown.filter fun c => (s.port c).enabled).orElse fun _ =>
    (List.finRange 4).find? fun c => (s.port c).enabled

/-- A blind round, when one may be made: PROMPT and ALARM_NOTE requests of an UNREACHABLE unit are placed on the blind
channel, once per interval (R87). -/
def State.blindRound (s : State) (u : UnitIx) : State :=
  let x := s.unit u
  if x.reach = .unreachable ∧ !x.blindUsed ∧ (x.due.has .prompt || x.due.has .alarmNote) then
    match s.blindChannel u with
    | some c => (s.modUnit u fun x => { x with blindUsed := true }).placeDues u [.alarmNote, .prompt] c
    | none => s
  else s

/-! ## The unreachable unit (R86) -/

/-- Whether entry to UNREACHABLE raises its notice: the search or resync that failed had begun from REACHABLE or from
UNKNOWN (R86, log 15). -/
def UnitCtx.unreachableTold (x : UnitCtx) (resyncFailed : Bool) : Bool :=
  if resyncFailed then
    match x.resyncFrom with
    | .unreachable => false
    | .searching => x.origin != .again
    | .unknown | .reachable => true
  else x.origin != .again

/-- Microseconds in a minute. -/
def usPerMinute : Nat := 60 * usPerSecond

/-- Entry to UNREACHABLE (R86). A placed POLL or REPORT_ONLY frame is taken back with the RESYNC frame and stays due,
since neither is sent blind (log 48). -/
def State.enterUnreachable (s : State) (u : UnitIx) (resyncFailed : Bool) : State :=
  let x := s.unit u
  let es := x.out
  let s := s.modUnit u fun x => { x with
    reach := .unreachable, probe := none, probesSent := 0, probeRef := none, tried := [],
    searchTimer := some (s.xif.clock + s.ule.searchInterval * usPerMinute), blindUsed := false }
  let s := s.removeEntries u es
  let s := s.modUnit u fun x => { x with na := x.vs }
  let s := s.confirmAll es .unsent
  let s := s.modUnit u fun x => { x with timer := .stopped, resync := .wanted, resyncAttempts := 0 }
  let s := (s.unplaceDues u [.resync, .poll, .report]).modDue u fun d => { d with resync := false }
  let s := if resyncFailed then s else s.modUnit u fun x => x.count .searchesFailed
  let s := s.writeUnit u
  let s := if x.unreachableTold resyncFailed then s.raise (.unreachable u resyncFailed es.length) else s
  s.blindRound u

/-! ## Searching (R84, R85) -/

/-- The channels in the order a search reaches them: from the current channel, else the search hint, else channel 0,
rising and wrapping from 3 to 0 (R84). -/
def UnitCtx.searchOrder (x : UnitCtx) : List Chan :=
  let first : Chan := x.lastKnown.getD 0
  [first, first + 1, first + 2, first + 3]

/-- The search probes a channel: POLL is set due and placed there, with the RESYNC, PROMPT and ALARM_NOTE requests
present and not placed (R85). A POLL frame still placed elsewhere is taken back first (log 17). -/
def State.probeChannel (s : State) (u : UnitIx) (c : Chan) : State :=
  let s := s.modUnit u fun x => { x with probe := some c, probesSent := 0 }
  let s := (s.unplaceDue u .poll).modDue u fun d => { d with poll := true }
  let s := s.placeDues u [.resync, .alarmNote, .prompt, .poll] c
  s.modUnit u fun x => { x with probeRef := x.due.placedPoll.map Placed.ref }

/-- The search takes up the next channel: those not enabled join channels tried without a probe, the first enabled one
is probed, and when none is left the search is exhausted (R84, R86). -/
def State.takeUpNext (s : State) (u : UnitIx) : State :=
  let x := s.unit u
  let left := x.searchOrder.filter fun c => !(x.tried.contains c)
  let skipped := left.takeWhile fun c => !(s.port c).enabled
  let s := s.modUnit u fun x => { x with tried := x.tried ++ skipped }
  match left.find? fun c => (s.port c).enabled with
  | some c => s.probeChannel u c
  | none => s.enterUnreachable u false

/-- A search begins: the unit becomes SEARCHING, the record is written at that change of reachability, and the first
channel is taken up (R74, R84). -/
def State.beginSearch (s : State) (u : UnitIx) (origin : SearchOrigin) : State :=
  let s := s.modUnit u fun x => { x with
    reach := .searching, origin := origin, probe := none, probesSent := 0, probeRef := none, tried := [],
    searchTimer := none }
  (s.writeUnit u).takeUpNext u

/-- The search moves on from its probe channel, which joins channels tried; frames still waiting there are taken back
(R85). -/
def State.searchMoveOn (s : State) (u : UnitIx) : State :=
  match (s.unit u).probe with
  | some c =>
    let s := s.unplaceDueWhere u fun d => d == c
    let s := s.modUnit u fun x => { x with
      tried := x.tried ++ [c], probe := none, probesSent := 0, probeRef := none, searchTimer := none }
    s.takeUpNext u
  | none => s

/-- A REACHABLE unit enters SEARCHING, cause RETRY_LIMIT or CHANNEL_LOST (R83). -/
def State.enterSearching (s : State) (u : UnitIx) (channelLost : Bool) : State :=
  let cur := (s.unit u).current
  let s := s.modUnit u fun x => x.stopTimerIfTrusted
  let s := s.pullBack u
  let s := s.unplaceDueWhere u fun d => some d == cur
  let s := s.modUnit u fun x => x.count .searches
  let s := s.raise (.searching u channelLost cur)
  s.beginSearch u .lost

/-! ## Requests becoming due (R49, R69, R84, R85, R87) -/

/-- The modes in which an UNKNOWN unit is tested for something due when a request is set due or a producer tells of a
message (R84). -/
def PartMode.testsUnknown : PartMode → Bool
  | .running | .faulted => true
  | .halted | .starting | .halting => false

/-- A request of a kind has been set due: its frame is placed as the unit's reachability allows. REACHABLE, on the
current channel (R69); SEARCHING, a RESYNC, PROMPT or ALARM_NOTE on the probe channel (R85); UNREACHABLE, a blind round
(R87); UNKNOWN, a search begins (R84). -/
def State.dueSet (s : State) (u : UnitIx) (k : DueKind) : State :=
  let x := s.unit u
  match x.reach with
  | .reachable =>
    match x.current with
    | some c => s.placeDue u k c
    | none => s
  | .searching =>
    match x.probe with
    | some c => if k = .resync ∨ k = .prompt ∨ k = .alarmNote then s.placeDue u k c else s
    | none => s
  | .unreachable => s.blindRound u
  | .unknown => if s.xif.mode.testsUnknown then s.beginSearch u .first else s

/-- A worker index put into an ascending list, once. -/
def insertWorker (w : WorkerIx) : List WorkerIx → List WorkerIx
  | [] => [w]
  | v :: vs => if w < v then w :: v :: vs else if w = v then v :: vs else v :: insertWorker w vs

/-- A note put into an ascending map, the new note replacing an old one (R49). -/
def insertAlarm (w : WorkerIx) (nt : AlarmNote) : List (WorkerIx × AlarmNote) → List (WorkerIx × AlarmNote)
  | [] => [(w, nt)]
  | (v, m) :: vs =>
    if w < v then (w, nt) :: (v, m) :: vs else if w = v then (w, nt) :: vs else (v, m) :: insertAlarm w nt vs

/-- RESYNC, POLL or REPORT_ONLY set due; one present stays as it was (R49). -/
def State.setDueFlag (s : State) (u : UnitIx) (k : DueKind) : State :=
  let s := s.modDue u fun d =>
    match k with
    | .resync => { d with resync := true }
    | .poll => { d with poll := true }
    | .report => { d with report := true }
    | .prompt | .alarmNote => d
  s.dueSet u k

/-- A worker added to a unit's PROMPT request (R49, R168). -/
def State.setPrompt (s : State) (u : UnitIx) (w : WorkerIx) : State :=
  (s.modDue u fun d => { d with prompt := insertWorker w d.prompt }).dueSet u .prompt

/-- A worker set in a unit's ALARM_NOTE request (R49, R168). -/
def State.setAlarmNote (s : State) (u : UnitIx) (w : WorkerIx) (nt : AlarmNote) : State :=
  (s.modDue u fun d => { d with alarm := insertAlarm w nt d.alarm }).dueSet u .alarmNote

/-! ## Resync (R70) -/

/-- A resync starts, unless one is running (R70). -/
def State.startResync (s : State) (u : UnitIx) : State :=
  if (s.unit u).resync = .running then s
  else
    let s := s.modUnit u fun x => { x with
      resync := .running, resyncAttempts := 0, resyncFrom := x.reach, timer := .stopped }
    let s := s.pullBack u
    let s := s.modUnit u fun x => { x with out := x.out.map fun e => { e with repeatMark := false } }
    (s.writeUnit u).setDueFlag u .resync

/-! ## Pulling (R65) -/

/-- Whether a unit may take new sequenced messages (R65). -/
def State.mayPull (s : State) (u : UnitIx) : Bool :=
  let x := s.unit u
  s.xif.mode == .running && x.registered && x.reach == .reachable && !x.busy && x.resync == .no
    && decide (x.out.length < s.ule.window)

/-- A pulled message takes V(S), joins the end of the outstanding list, and its frame passes to WAITING (R65). -/
def State.takeMessage (s : State) (u : UnitIx) (m : Message) : State :=
  let x := s.unit u
  match x.current with
  | some c =>
    let e : OutEntry :=
      { seq := x.vs, ref := s.ule.nextRef, kind := m.kind, producer := m.producer, payload := m.payload,
        retries := 0, attempt := 0, placement := .waiting, repeatMark := false, everOnAir := false }
    (s.bumpRef.modUnit u fun x => { x with vs := x.vs + 1, out := x.out ++ [e] }).join c (e.frame u)
  | none => s

/-- The producers are asked in turn: the Permit Engine, then the Order Dispatcher (R65). -/
def State.giveMessage (s : State) (address : Nat) : Option Message × State :=
  match s.permitGive address with
  | (some m, s') => (some m, s')
  | (none, s') => s'.orderGive address

/-- At most `n` messages pulled, one after another, while the unit may take them and a producer gives one (R65). -/
def State.pullUpTo (s : State) (u : UnitIx) : Nat → State
  | 0 => s
  | n + 1 =>
    if s.mayPull u && (s.unit u).current.isSome then
      match s.giveMessage (s.unit u).address with
      | (some m, s') => (s'.takeMessage u m).pullUpTo u n
      | (none, s') => s'
    else s

/-- A pull is attempted: until the window is full or both producers answer none (R65). -/
def State.pull (s : State) (u : UnitIx) : State := s.pullUpTo u s.ule.window

/-- Whether something is due to a unit: a request in its due set, or a due message at a producer (R84, log 19). -/
def State.somethingDue (s : State) (u : UnitIx) : Bool :=
  let x := s.unit u
  x.due.any || s.permitHolds x.address || (s.orderNext x.address).isSome

/-- An UNKNOWN unit with something due is searched for (R84). The test at UNIT_REGISTER, at the end of START and at a
channel's entry to service is made in whatever mode these are taken (R84, R88). -/
def State.testUnknown (s : State) (u : UnitIx) : State :=
  let x := s.unit u
  if x.registered && x.reach == .unknown && s.somethingDue u then s.beginSearch u .first else s

/-- Every UNKNOWN unit is tested, when the mode becomes RUNNING or FAULTED at the end of START (R84). DESIGN CHOICE (log 71,
unsafe): the units are tested, and those with no channel to search raise UNREACHABLE, in unit index order, 0 to 95; R84
gives no order among them. -/
def State.testAllUnknown (s : State) : State := forAll (fun u s => s.testUnknown u) s

/-- The engine acts on a unit it was told of: a pull for a unit that may take messages, a search for an UNKNOWN one in
RUNNING or FAULTED (R65, R84). -/
def State.actOnTold (s : State) (u : UnitIx) : State :=
  if (s.unit u).told then
    let s := s.modUnit u fun x => { x with told := false }
    let s := if s.xif.mode.testsUnknown then s.testUnknown u else s
    s.pull u
  else s

/-- The end of a step (log 9): the engine acts on the tellings of the step, unit by unit in index order, the offer lists
are offered to the ports, and the moment passes, so that frames which join a list later stand behind (R64, R65). -/
def State.settle (s : State) : State :=
  let s := (forAll (fun u s => s.actOnTold u) s).offerAll
  { s with ule := { s.ule with moment := s.ule.moment + 1 } }

/-! ## Holes in the downlink sequence (R98, R140) -/

/-- Place of a sequence number in the outstanding list: its distance from N_a (R48). -/
def UnitCtx.place (x : UnitCtx) (seq : BitVec 8) : Nat := (seq - x.na).toNat

/-- The removal of entries is closed up (R98): nothing more while resync pending is WANTED or RUNNING; V(S) is set back
to the lowest removed number when no remaining entry lies beyond it; otherwise a resync starts. `removed` are the removed
numbers' places, with N_a as it stands. -/
def State.closeHole (s : State) (u : UnitIx) (removed : List (BitVec 8)) : State :=
  let x := s.unit u
  match removed with
  | [] => s
  | first :: _ =>
    let s :=
      if x.resync ≠ .no then s
      else if x.out.all fun e => decide (x.place e.seq < x.place first) then
        s.modUnit u fun x => { x with vs := first }
      else s.startResync u
    s.modUnit u fun x => if x.out.isEmpty then x.stopTimerIfTrusted else x

/-- Whether an entry is a segment of an order. -/
def OutEntry.isSegmentOf (e : OutEntry) (o : OrderIx) : Bool :=
  match e.producer with
  | .orderSegment q _ => q == o
  | _ => false

/-- The unstarted segments of a SENDING order are withheld: removed, confirmed unsent, and the hole closed up (R98). An
ORDER_CANCEL of the order that was never on air stays (log 53). -/
def State.withhold (s : State) (o : OrderIx) : State :=
  match s.unitOf (s.order o).unit with
  | some u =>
    let es := (s.unit u).out.filter fun e => e.isSegmentOf o && !e.everOnAir
    let s := (s.removeEntries u es).confirmAll es .unsent
    s.closeHole u (es.map OutEntry.seq)
  | none => s

/-- A revoked step's message leaves its unit's link (R140): never on air, its removal is closed up as for withheld
segments; on air now or earlier, a resync starts unless one is pending. It is confirmed dropped. -/
def State.revoke (s : State) (u : UnitIx) (r : ProducerRef) : State :=
  match (s.unit u).out.find? fun e => e.producer == r with
  | none => s
  | some e =>
    let s := s.removeEntries u [e]
    let s :=
      if e.everOnAir then
        let s := if (s.unit u).resync = .no then s.startResync u else s
        s.modUnit u fun x => if x.out.isEmpty then x.stopTimerIfTrusted else x
      else s.closeHole u [e.seq]
    s.confirm r .dropped

/-! ## Channels entering and leaving service (R68, R88) -/

/-- A channel has left service: its offer list is settled, and each unit taken as it stands with the channel (R88). DESIGN
CHOICE (log 64, unsafe): the units are taken, and their SEARCHING notices raised, in unit index order, 0 to 95; R88 gives
no order among them. -/
def State.channelOut (s : State) (c : Chan) : State :=
  let s := (s.setOffer c []).settleFrames ((s.offer c).map OfferItem.frame)
  forAll (fun u s =>
    let x := s.unit u
    if x.registered then
      if x.reach = .reachable ∧ x.current = some c then s.enterSearching u true
      else if x.reach = .searching ∧ x.probe = some c then s.searchMoveOn u
      else s
    else s) s

/-- A channel has entered service: every UNREACHABLE unit is searched for at once, and every UNKNOWN unit is tested; the
offer list is offered at the end of the step (R88). DESIGN CHOICE (log 71, unsafe): the units are taken in one pass, in unit
index order, 0 to 95; R88 gives no order among them. -/
def State.channelIn (s : State) : State :=
  forAll (fun u s =>
    let x := s.unit u
    if x.registered && x.reach == .unreachable then s.beginSearch u .again else s.testUnknown u) s

end Sys2Proof.Machine
end

