-- ==== Sys2Proof/Machine/Operands.lean ====
section
/-! DEFINITION. The forms in which operands reach the part: the field frame and its receive checks (chapter 1,
Tables 11-1, 11-2), the posting entry (Table 11-4), and the host fields of the records (Tables 11-10, 11-11). -/

namespace Sys2Proof.Machine

/-! ## The field frame -/

/-- The header fields of a field frame (Table 1-1). -/
structure Header where
  kindCode : Nat
  up : Bool
  expedited : Bool
  sequenced : Bool
  address : Nat
  site : Nat
  lockout : Bool
  resend : Bool
  busy : Bool
  reportValid : Bool
  systemCode : Byte
  ns : BitVec 8
  nextExpected : BitVec 8
  length : Nat
  timeMark : Nat
  cls : Nat
  attempt : Nat
deriving DecidableEq, Repr

/-- The ten bytes of a header; spare bits are 0 (Table 11-1). -/
def Header.bytes (h : Header) : List Byte :=
  [byteOf (h.kindCode * 8 + bit h.up * 4 + bit h.expedited * 2 + bit h.sequenced)]
  ++ beBytes 2 (h.address * 64 + h.site * 16 + bit h.lockout * 8 + bit h.resend * 4 + bit h.busy * 2
      + bit h.reportValid)
  ++ [h.systemCode, h.ns, h.nextExpected, byteOf h.length]
  ++ beBytes 2 h.timeMark
  ++ [byteOf (h.cls * 64 + h.attempt * 8)]

/-- The header a delivered frame begins with (Table 11-1). -/
def Header.parse (bs : List Byte) : Header :=
  let b0 := byteAt bs 0
  let w := beNat [byteAt bs 1, byteAt bs 2]
  { kindCode := b0.toNat / 8
    up := b0.getLsbD 2
    expedited := b0.getLsbD 1
    sequenced := b0.getLsbD 0
    address := w / 64
    site := w / 16 % 4
    lockout := w.testBit 3
    resend := w.testBit 2
    busy := w.testBit 1
    reportValid := w.testBit 0
    systemCode := byteAt bs 3
    ns := byteAt bs 4
    nextExpected := byteAt bs 5
    length := (byteAt bs 6).toNat
    timeMark := beNat [byteAt bs 7, byteAt bs 8]
    cls := (byteAt bs 9).toNat / 64
    attempt := (byteAt bs 9).toNat / 8 % 8 }

/-- The payload of a delivered frame: what lies between the ten header bytes and the two check bytes (R1). -/
def payloadOf (bs : List Byte) : List Byte := (bs.drop 10).take (bs.length - 12)

/-- A whole frame: header, payload, check high byte first (R1, R5). -/
def frameBytes (h : Header) (payload : List Byte) : List Byte :=
  let body := h.bytes ++ payload
  body ++ beBytes 2 (check body).toNat

/-- The check of a delivered frame passes (R5): run over all bytes but the last two, it equals those two, high byte
first. -/
def checkPasses (bs : List Byte) : Bool :=
  check (bs.take (bs.length - 2)) == BitVec.ofNat 16 (beNat (bs.drop (bs.length - 2)))

/-- Table 1-5: the payload agrees with the kind (R9). -/
def payloadAgrees (k : FrameKind) (p : List Byte) : Bool :=
  let b := fun i => (byteAt p i).toNat
  match k with
  | .checkin => p.length == 1 && decide (b 0 ≤ 191)
  | .emergency =>
    decide (b 0 ≤ 191) && (EmergencyCause.ofNum (b 1)).isSome
      && ((p.length == 3 && b 2 == 0) || (p.length == 11 && b 2 == 1))
  | .standdown => p.length == 9 && decide (b 2 ≤ 191)
  | .orderReply => p.length == 3 && (Decision.ofNum (b 1)).isSome
  | .readback => p.length == 9 && decide (b 0 ≤ 63)
  | .stepDone =>
    p.length == 9 && decide (b 0 ≤ 63) && decide (1 ≤ b 1 ∧ b 1 ≤ 16) && (decide (b 2 ≤ 191) || b 2 == 255)
  | .surrender => p.length == 9 && decide (b 0 ≤ 63)
  | .pollReply | .resyncAck | .reportUp => p.length == 0
  | .orderSeg | .orderCancel | .permitHdr | .permitStep | .permitNote | .prompt | .alarmNote | .poll | .resync
  | .reportDown | .bulletin => false

/-- The header and payload checks of R7 to R9, applied together: system code, an uplink kind sent upward, its flag pair,
an address from 1 to 1000, and a payload that agrees with the kind. -/
def frameWellFormed (systemCode : Byte) (bs : List Byte) : Bool :=
  let h := Header.parse bs
  match FrameKind.ofCode h.kindCode with
  | none => false
  | some k =>
    h.systemCode == systemCode && h.up && k.isUp && h.expedited == k.expedited && h.sequenced == k.sequenced
      && decide (1 ≤ h.address ∧ h.address ≤ 1000) && payloadAgrees k (payloadOf bs)

/-- What the receive checks make of a frame. -/
inductive CheckResult
  | passed
  | checkFailure
  | malformed
deriving DecidableEq, Repr

/-- The receive checks (R6 to R9), in the order R6 gives: size, check, payload length field, then the rest together. -/
def receiveCheck (systemCode : Byte) (bs : List Byte) : CheckResult :=
  if bs.length < 12 ∨ 76 < bs.length then .malformed
  else if !checkPasses bs then .checkFailure
  else if 64 < (Header.parse bs).length ∨ (Header.parse bs).length ≠ bs.length - 12 then .malformed
  else if frameWellFormed systemCode bs then .passed
  else .malformed

/-! ## The posting entry (Table 11-4) -/

/-- A posting entry as read: verb code, index, and the group and mask of BULLETIN. -/
structure PostingEntry where
  verb : Nat
  index : Nat
  group : Nat
  mask : Nat
deriving DecidableEq, Repr

/-- Entry k of a posting page. -/
def State.postingEntry (s : State) (p : Page) (k : Nat) : PostingEntry :=
  let f := fun off n => s.field p.postingRegion (16 * k + off) n
  { verb := f 0 1, index := f 2 2, group := f 4 2, mask := f 6 1 }

/-! ## Host fields of the records (Tables 11-10, 11-11) -/

/-- Host fields of a unit record. -/
structure UnitHost where
  address : Nat
  key : List Byte
  counter : BitVec 32
  hint : Option Chan
deriving DecidableEq, Repr

/-- A search hint or current channel above 3 is read as none (R189). -/
def State.unitHost (s : State) (u : UnitIx) : UnitHost :=
  let b := 64 * u.val
  { address := s.field .units b 2
    key := s.fieldBytes .units (b + 0x02) 8
    counter := BitVec.ofNat 32 (s.field .units (b + 0x0A) 4)
    hint := indexIn 4 (s.field .units (b + 0x0E) 1) }

/-- Host fields of a worker record. -/
structure WorkerHost where
  address : Nat
  interval : Nat
  lead : Nat
  grace : Nat
  escalation : Nat
deriving DecidableEq, Repr

def State.workerHost (s : State) (w : WorkerIx) : WorkerHost :=
  let f := fun off n => s.field .workers (32 * w.val + off) n
  { address := f 0x00 2, interval := f 0x02 1, lead := f 0x03 1, grace := f 0x04 1, escalation := f 0x05 1 }

/-- The four worker settings brought into range, with the replacements to log (R156). -/
def workerSettings (w : WorkerIx) (h : WorkerHost) : (Nat × Nat × Nat × Nat) × List ClampEntry :=
  let src := ClampSource.worker w
  let i := clampTo src 0x02 1 240 h.interval
  let l := clampTo src 0x03 0 30 h.lead
  let lead := if i.1 ≤ l.1 then i.1 - 1 else l.1
  let lower : List ClampEntry :=
    if lead = l.1 then [] else [{ source := src, setting := 0x03, found := l.1, used := lead }]
  let g := clampTo src 0x04 0 60 h.grace
  let e := clampTo src 0x05 1 30 h.escalation
  ((i.1, lead, g.1, e.1), i.2 ++ l.2 ++ lower ++ g.2 ++ e.2)

/-- Host fields of an order record. -/
structure OrderHost where
  address : Nat
  priority : Nat
  /-- FF hex is none. -/
  permit : Option Nat
  replyWanted : Bool
  expiry : Nat
  bodyLen : Nat
deriving DecidableEq, Repr

/-- The host fields of an order record; a reply-wanted byte other than 1 is no (R91, R189, log 44). -/
def State.orderHost (s : State) (o : OrderIx) : OrderHost :=
  let f := fun off n => s.field .orders (512 * o.val + off) n
  { address := f 0x000 2
    priority := f 0x002 1
    permit := if f 0x003 1 = 0xFF then none else some (f 0x003 1)
    replyWanted := f 0x004 1 == 1
    expiry := f 0x006 2
    bodyLen := f 0x008 2 }

/-- The body bytes of an order record, at most the 480 the record holds. -/
def State.orderBody (s : State) (o : OrderIx) (len : Nat) : List Byte :=
  s.fieldBytes .orders (512 * o.val + 0x020) (min len 480)

/-- Host fields of a permit record; the lists are those the counts reach, eight entries at most, and the steps all
sixteen. -/
structure PermitHost where
  crew : Nat
  n : Nat
  h : Nat
  sectionCount : Nat
  workerCount : Nat
  sections : List Nat
  workers : List Nat
  steps : List Step
deriving DecidableEq, Repr

def State.permitHost (s : State) (p : PermitIx) : PermitHost :=
  let f := fun off n => s.field .permits (256 * p.val + off) n
  let sc := f 0x04 1
  let wc := f 0x05 1
  { crew := f 0x00 2
    n := f 0x02 1
    h := f 0x03 1
    sectionCount := sc
    workerCount := wc
    sections := (List.range (min sc 8)).map fun k => f (0x06 + k) 1
    workers := (List.range (min wc 8)).map fun k => f (0x0E + k) 1
    steps := (List.range 16).map fun k =>
      { action := byteOf (f (0x20 + 8 * k) 1)
        device := BitVec.ofNat 32 (f (0x21 + 8 * k) 4)
        sect := f (0x25 + 8 * k) 1
        energising := byteOf (f (0x26 + 8 * k) 1)
        state := .pending } }

/-- A list in which nothing appears twice. -/
def distinct (l : List Nat) : Bool :=
  match l with
  | [] => true
  | x :: xs => !(xs.contains x) && distinct xs

/-- The MALFORMED tests of PERMIT_ISSUE (R113, test 2). -/
def PermitHost.malformed (x : PermitHost) : Bool :=
  x.n == 0 || decide (16 < x.n)
    || x.h == 0 || decide (x.n < x.h)
    || x.sectionCount == 0 || decide (8 < x.sectionCount) || decide (8 < x.workerCount)
    || !(distinct x.sections)
    || x.workers.any (fun w => decide (191 < w)) || !(distinct x.workers)
    || (x.steps.take x.n).any (fun st =>
        st.action == 0 || decide (7 < st.action.toNat) || decide (1 < st.energising.toNat))
    || (x.steps.take x.h).any Step.isEnergising

end Sys2Proof.Machine
end

