-- ==== Sys2Proof/Machine/Workers.lean ====
section
/-! DEFINITION. The Lone Worker Supervisor: intervals, alarms, check-ins, emergencies, and its requests to the Unit Link
Engine (chapter 9). -/

namespace Sys2Proof.Machine

/-! ## Intervals and requests -/

/-- A new interval: ON_DUTY, the deadline the current second plus I minutes, the timer at the prompt time, which is the
deadline when lead is 0 (R155, R163). -/
def WorkerCtx.newInterval (x : WorkerCtx) (second : Nat) : WorkerCtx :=
  let d := second + x.interval * 60
  { x with state := .onDuty, deadline := some d, timer := some (d - x.lead * 60) }

/-- The registered unit a worker field names, when there is one (R168). -/
def State.unitNamed (s : State) (address : Option Nat) : Option UnitIx :=
  address.bind s.unitOf

/-- The worker is withdrawn from its bound unit's PROMPT request (R168). -/
def State.withdrawPrompt (s : State) (w : WorkerIx) : State :=
  match s.unitNamed (s.worker w).bound with
  | some u => s.modDue u fun d => { d with prompt := d.prompt.filter fun v => v != w }
  | none => s

/-- The worker is set in the ALARM_NOTE request of a unit with a note (R168). -/
def State.requestAlarmNote (s : State) (address : Option Nat) (w : WorkerIx) (nt : AlarmNote) : State :=
  match s.unitNamed address with
  | some u => s.setAlarmNote u w nt
  | none => s

/-- POLL is set due for the worker's bound unit (R162, R168). -/
def State.requestPoll (s : State) (w : WorkerIx) : State :=
  match s.unitNamed (s.worker w).bound with
  | some u => s.setDueFlag u .poll
  | none => s

/-- A worker that was PROMPTED is withdrawn from the request as it leaves that state (R168). -/
def State.leavePrompted (s : State) (w : WorkerIx) : State :=
  if (s.worker w).state = .prompted then s.withdrawPrompt w else s

/-! ## The end of an interval (R159 to R162) -/

/-- The prompt time: PROMPTED, the timer at the deadline, and the worker in its unit's PROMPT request (R159). -/
def State.promptWorker (s : State) (w : WorkerIx) : State :=
  let s := (s.modWorker w fun x => { x with state := .prompted, timer := x.deadline }).writeWorker w
  match s.unitNamed (s.worker w).bound with
  | some u => s.setPrompt u w
  | none => s

/-- Entry to OVERDUE (R162). -/
def State.enterOverdue (s : State) (w : WorkerIx) : State :=
  let x := s.worker w
  let s := s.setWorker w { x with
    state := .overdue, origin := .overdue, dutyBefore := true, noteUnit := x.bound,
    timer := some (s.second + x.escalation * 60), escCount := 0 }
  (s.raise (.overdue w x.bound x.deadline x.state x.openPermit)).writeWorker w

/-- The coverage test: the unit has been heard, at most the coverage window ago (R160). -/
def State.inCoverage (s : State) (w : WorkerIx) : Bool :=
  match s.unitNamed (s.worker w).bound with
  | some u =>
    match (s.unit u).lastHeard with
    | some t => decide (s.second - t ≤ 60 * s.lws.coverage)
    | none => false
  | none => false

/-- What the SILENT notice gives as the unit's last heard (R160). DESIGN CHOICE (log 76, unsafe): never, when no registered
context holds the address; R160 names the unit's last heard and no value for that case. -/
def State.lastHeardOf (s : State) (address : Option Nat) : Option Nat :=
  (s.unitNamed address).bind fun u => (s.unit u).lastHeard

/-- The deadline: in coverage, or with no grace, OVERDUE; else SILENT until deadline plus G (R160). -/
def State.deadlineReached (s : State) (w : WorkerIx) : State :=
  let s := s.leavePrompted w
  let x := s.worker w
  if s.inCoverage w ∨ x.grace = 0 then s.enterOverdue w
  else
    let s := s.setWorker w { x with state := .silent, timer := some (x.deadline.getD s.second + x.grace * 60) }
    (s.raise (.silent w x.bound (s.lastHeardOf x.bound))).writeWorker w

/-- Escalation and re-escalation: the count rises, staying at 255, the timer is set again, POLL is set due (R162). -/
def State.escalateWorker (s : State) (w : WorkerIx) : State :=
  let x := s.worker w
  let count := if x.state = .overdue then 1 else satInc x.escCount
  let s := s.setWorker w { x with
    state := .escalated, timer := some (s.second + x.escalation * 60), escCount := count }
  ((s.raise (.escalated w x.bound x.deadline x.openPermit count)).writeWorker w).requestPoll w

/-- A unit was heard: its SILENT workers become OVERDUE, in index order (R161). -/
def State.workersHeard (s : State) (address : Nat) : State :=
  forAll (fun w s =>
    let x := s.worker w
    if x.state = .silent ∧ x.bound = some address then s.enterOverdue w else s) s

/-! ## Check-ins (R163) -/

/-- A check-in ends no emergency (Table 9-4). -/
def WorkerCtx.inEmergency (x : WorkerCtx) : Bool :=
  x.state == .emergency || (x.state == .acknowledged && x.origin == .emergency)

/-- A check-in, from a CHECKIN frame or an accepted STEP_DONE (R163, Table 9-4; log 52 for a worker ACKNOWLEDGED with
origin none). -/
def State.checkIn (s : State) (w : WorkerIx) : State :=
  let x := s.worker w
  let y := { x with lastCheckin := some s.second }
  match x.state with
  | .off | .emergency => s.setWorker w y
  | .onDuty => (s.setWorker w (y.newInterval s.second)).writeWorker w
  | .prompted => ((s.withdrawPrompt w).setWorker w (y.newInterval s.second)).writeWorker w
  | .silent | .overdue | .escalated =>
    ((s.setWorker w { y.newInterval s.second with origin := .none }).raise (.cleared w x.state)).writeWorker w
  | .acknowledged =>
    if x.origin = .emergency then s.setWorker w y
    else ((s.setWorker w { y.newInterval s.second with origin := .none }).raise (.cleared w x.state)).writeWorker w

/-- An accepted CHECKIN from a unit; from another than the worker's bound unit it is stray (R163). -/
def State.checkinFrame (s : State) (sender : Nat) (w : WorkerIx) : State :=
  if (s.worker w).bound = some sender then s.checkIn w
  else { s with lws := { s.lws with strayCheckins := satInc s.lws.strayCheckins } }

/-! ## Emergencies (R164) -/

/-- The note of a worker in an emergency: RECEIVED in EMERGENCY, ACKNOWLEDGED in ACKNOWLEDGED (R164, R166). -/
def WorkerCtx.alarmNote (x : WorkerCtx) : AlarmNote :=
  if x.state = .acknowledged then .acknowledged else .received

/-- An EMERGENCY frame begins an emergency, or repeats one (R164; log 52 for the duty before of a worker ACKNOWLEDGED with
origin none). -/
def State.emergencyFrame (s : State) (sender : Nat) (w : WorkerIx) (cause : EmergencyCause)
    (fix : Option (BitVec 32 × BitVec 32)) : State :=
  let x := s.worker w
  let d : EmergencyDetail :=
    { sender := sender, cause := cause, mismatch := x.bound != some sender, before := x.state,
      openPermit := x.openPermit, fix := fix }
  if x.inEmergency then
    let y := { x with noteUnit := some sender, position := fix.orElse fun _ => x.position }
    let s := (s.setWorker w y).raise (.repeated w d)
    let s := if y.position = x.position then s else s.writeWorker w
    s.requestAlarmNote (some sender) w x.alarmNote
  else
    let s := s.leavePrompted w
    let s := s.setWorker w { x with
      state := .emergency, origin := .emergency, dutyBefore := x.state != .off, timer := none,
      noteUnit := some sender, position := fix.orElse fun _ => x.position }
    ((s.raise (.emergency w d)).writeWorker w).requestAlarmNote (some sender) w .received

/-- The end of an alarm: ON_DUTY with a new interval when the worker was supervised before, else OFF with the deadline
none; alarm origin none (R166, R167). DESIGN CHOICE (log 61, unsafe): a worker that START restored ACKNOWLEDGED with origin
OVERDUE and duty before not supervised, from a record the server changed, goes by its duty before, to OFF; R167 also says
that an alarm begun as OVERDUE always returns to ON_DUTY. -/
def WorkerCtx.endAlarm (x : WorkerCtx) (second : Nat) : WorkerCtx :=
  if x.dutyBefore then { x.newInterval second with origin := .none }
  else { x with state := .off, deadline := none, timer := none, origin := .none }

/-- A STANDDOWN refused by the code checker (R166). -/
def State.standdownRefused (s : State) (sender : Nat) (w : WorkerIx) (why : NoteCode) : State :=
  let x := s.worker w
  let s := if x.inEmergency then s.requestAlarmNote x.noteUnit w x.alarmNote else s
  let s := s.raise (.standdownRefused w sender why)
  { s with lws := { s.lws with refusedStanddowns := satInc s.lws.refusedStanddowns } }

/-- A STANDDOWN passed by the code checker, once its counter write is complete (R166). -/
def State.standdownTaken (s : State) (sender : Nat) (w : WorkerIx) : State :=
  let x := s.worker w
  if x.inEmergency ∧ (x.noteUnit = some sender ∨ x.bound = some sender) then
    let y := x.endAlarm s.second
    ((s.setWorker w y).raise (.standdown w sender y.state)).writeWorker w
  else { s with lws := { s.lws with strayStanddowns := satInc s.lws.strayStanddowns } }

/-! ## Answers to the Permit Engine (R169) -/

/-- Whether the worker is bound to a registered unit (R169). -/
def State.workerBound (s : State) (w : WorkerIx) : Bool :=
  (s.unitNamed (s.worker w).bound).isSome

/-- The first unaccounted worker of a list, in list order, with its state; an index above 191 names no worker (R122,
R123). -/
def State.firstUnaccounted (s : State) : List Nat → Option (Nat × WorkerState)
  | [] => none
  | n :: ns =>
    match indexIn 192 n with
    | some w =>
      if (s.worker w).state.unaccounted then some (n, (s.worker w).state) else s.firstUnaccounted ns
    | none => s.firstUnaccounted ns

end Sys2Proof.Machine
end

