-- ==== Sys2Proof/Machine/PermitSteps.lean ====
section
/-! DEFINITION. The permit machine: what its transitions do to holds, orders and bindings, and how it takes crew
confirmations (chapters 6 and 7). -/

namespace Sys2Proof.Machine

/-! ## Telling the Order Dispatcher (R103, R129) -/

/-- What a permit's transition does at once to one order that names it (Table 5-4). A SENDING order of a permit in
HOLDING has its due message told; the start of sending of orders made QUEUED follows for all of them (log 43). -/
def State.announceTo (s : State) (entered : PermitState) (o : OrderIx) : State :=
  let x := s.order o
  match entered with
  | .holding =>
    match x.state with
    | .held => (s.setOrder o { x with state := .queued }).writeOrder o
    | .sending => s.tellDue x.unit
    | _ => s
  | .surrenderPending =>
    match x.state with
    | .queued => (s.setOrder o { x with state := .held }).writeOrder o
    | .sending => s.withhold o
    | _ => s
  | .restoring | .closed | .cancelled =>
    match x.state with
    | .queued | .held => s.failOrder o .permitGone
    | .sending => s.enterWithdraw o .failed
    | _ => s
  | .free | .posted | .issued | .active => s

/-- Whether an order names a permit. -/
def OrderCtx.names (x : OrderCtx) (p : PermitIx) : Bool := x.permit == some p.val

/-- The Order Dispatcher is told of the state a permit has entered (R103, R129). DESIGN CHOICE (log 43, unsafe): the orders
naming it are treated in index order, for R103 and R129 give none, and at HOLDING the start of sending is taken for their
units after that. -/
def State.announce (s : State) (p : PermitIx) (entered : PermitState) : State :=
  let s := forAll (fun o s => if (s.order o).names p then s.announceTo entered o else s) s
  if entered = .holding then
    forAll (fun o s =>
      if (s.order o).names p ∧ (s.order o).state = .queued then s.startSending (s.order o).unit else s) s
  else s

/-! ## Bindings (R110, R128) -/

/-- The Permit Engine changes a worker's binding and writes the open-permit byte (R171). -/
def State.setBinding (s : State) (w : WorkerIx) (b : Option PermitIx) : State :=
  (s.modWorker w fun x => { x with openPermit := b }).writeOpenPermit w

/-- The workers a list of numbers names; a number above 191 names none. -/
def workersNamed (l : List Nat) : List WorkerIx := l.filterMap (indexIn 192)

/-- Each worker of a list is bound to a permit (R114, R144). -/
def State.bindAll (s : State) (p : PermitIx) (ws : List WorkerIx) : State :=
  ws.foldl (fun s w => if (s.worker w).openPermit = some p then s else s.setBinding w (some p)) s

/-- Each worker of the permit's list is unbound from it (R128). -/
def State.unbindAll (s : State) (p : PermitIx) : State :=
  (workersNamed (s.permit p).workers).foldl
    (fun s w => if (s.worker w).openPermit = some p then s.setBinding w none else s) s

/-! ## The accountability test (R122) -/

/-- The first unaccounted worker of a permit's list, in list order; none when the test passes (R122). -/
def State.unaccountedOn (s : State) (p : PermitIx) : Option (Nat × WorkerState) :=
  s.firstUnaccounted (s.permit p).workers

/-! ## Section holds (R134 to R139) -/

/-- The sections a permit holds, each once (R134, R135). -/
def PermitCtx.holdSections (x : PermitCtx) : List Nat := x.sections.eraseDups

/-- One hold more on each section of a list, in list order (R135). -/
def State.raiseHolds (s : State) (sections : List Nat) : State :=
  sections.foldl (fun s k => s.setHold k (s.hold k + 1)) s

/-- One hold less on each section of a list, in list order (R136). -/
def State.lowerHolds (s : State) (sections : List Nat) : State :=
  sections.foldl (fun s k => s.setHold k (s.hold k - 1)) s

/-- One permit is examined when a section's count has risen from 0: a current energising step on that section that is
SENT, in ACTIVE or RESTORING, is revoked (R139). The frame of a step that is DONE, or of a permit that was cancelled, is
not revoked (R141); it stays outstanding and does not start while the section is held (R137, log 50). -/
def State.examinePermit (s : State) (sect : Nat) (p : PermitIx) : State :=
  let x := s.permit p
  match x.step x.current with
  | some st =>
    if (x.state = .active ∨ x.state = .restoring) ∧ st.isEnergising ∧ st.sect = sect ∧ st.state = .sent then
      let s := s.interlockStep p x.current sect true
      match s.unitOf x.crew with
      | some u => s.revoke u (.permitStep p x.current)
      | none => s
    else s
  | none => s

/-- Every permit is examined in index order (R139). -/
def State.examineRise (s : State) (sect : Nat) : State :=
  forAll (fun p s => s.examinePermit sect p) s

/-- One permit is re-examined when a section's count has fallen to 0: a current step INTERLOCKED on that section becomes
DUE (R138). -/
def State.releasePermit (s : State) (sect : Nat) (clearer p : PermitIx) : State :=
  let x := s.permit p
  match x.step x.current with
  | some st =>
    if st.state = .interlocked ∧ st.sect = sect then
      let s := s.modPermit p fun x => x.setStep x.current .due
      (s.raise (.interlockCleared p x.current sect clearer)).writePermit p
    else s
  | none => s

/-- The frames that R137 kept from starting wait on the links again, now that their section's count has fallen to 0: the
UNPLACED ones of every unit whose link allows (R48, log 50). -/
def State.resumeFrames (s : State) (sect : Nat) : State :=
  forAll (fun u s =>
    let x := s.unit u
    if x.registered ∧ x.reach = .reachable ∧ x.resync = .no then
      s.requeue u fun e => e.placement == .unplaced && energisedSection e.kind e.payload == some sect
    else s) s

/-- Every permit is re-examined in index order (R138), and the frames that waited for the section's release resume. -/
def State.releaseFall (s : State) (clearer : PermitIx) (sect : Nat) : State :=
  (forAll (fun p s => s.releasePermit sect clearer p) s).resumeFrames sect

/-! ## Transitions -/

/-- Entry to HOLDING from ACTIVE (R121, R135): the counts rise, the sections that rose from 0 are examined, the Order
Dispatcher is told, the notice is raised and the record written. DESIGN CHOICE (log 73, unsafe): of several sections that
rose from 0 each is examined whole before the next, in list order, which orders the INTERLOCKED notices and the revocations;
R135 gives the list order to the rises and R139 the index order to the permits of one section, and neither orders the
examinations. -/
def State.enterHolding (s : State) (p : PermitIx) : State :=
  let secs := (s.permit p).holdSections
  let risen := secs.filter fun k => s.hold k == 0
  let s := s.modPermit p fun x => { x with state := .holding }
  let s := s.raiseHolds secs
  let s := risen.foldl State.examineRise s
  let s := s.announce p .holding
  (s.raise (.holding p (s.permit p).sections false)).writePermit p

/-- Entry to SURRENDER_PENDING (R123, R124). -/
def State.enterSurrenderPending (s : State) (p : PermitIx) (source : SurrenderSource) : State :=
  let s := s.modPermit p fun x => { x with state := .surrenderPending, source := source }
  let s := s.announce p .surrenderPending
  (s.raise (.surrenderRequest p (source == .desk))).writePermit p

/-- Entry to CLOSED (R128). -/
def State.enterClosed (s : State) (p : PermitIx) (byStep : Bool) : State :=
  let s := s.modPermit p fun x => { x with state := .closed }
  let s := (s.unbindAll p).announce p .closed
  (s.raise (.closed p byStep)).writePermit p

/-- An accepted surrender (R125, R136). -/
def State.acceptSurrender (s : State) (p : PermitIx) : State :=
  let secs := (s.permit p).holdSections
  let s := s.lowerHolds secs
  let s := (secs.filter fun k => s.hold k == 0).foldl (State.releaseFall · p) s
  let x := s.permit p
  if x.h = x.n then s.enterClosed p false
  else
    let s := s.modPermit p fun x =>
      { x.setStep (x.h + 1) .due with state := .restoring, current := x.h + 1 }
    let s := s.announce p .restoring
    (s.raise (.restoring p (x.h + 1))).writePermit p

/-- A refused surrender: back to HOLDING, with the holds as they were and a note to the crew (R126). DESIGN CHOICE (log 66,
unsafe): for a permit restored with surrender source none the note's subject kind is 0; Table 6-5 gives it for CREW and
LOCAL only. -/
def State.refuseSurrender (s : State) (p : PermitIx) : State :=
  let s := s.modPermit p fun x => { x with state := .holding }
  let s := s.queueNote p .surrenderRefused 0
    (if (s.permit p).source = .crew then FrameKind.surrender.code else 0)
  let s := s.announce p .holding
  (s.raise (.holding p (s.permit p).sections true)).writePermit p

/-- A cancelled permit (R127, R128). -/
def State.cancelPermit (s : State) (p : PermitIx) : State :=
  let before := (s.permit p).state
  let s := s.modPermit p fun x =>
    let y := if x.stepState x.current = .due ∨ x.stepState x.current = .interlocked then x.setStep x.current .pending
      else x
    { y with headerDue := false }
  let s := s.queueNote p .cancelled 0 0
  let s := s.modPermit p fun x => { x with state := .cancelled }
  let s := (s.unbindAll p).announce p .cancelled
  (s.raise (.cancelled p before)).writePermit p

/-! ## Crew confirmations (R118 to R123) -/

/-- A crew confirmation is refused to the crew (R118): a note is queued, the last refusal set, the notice raised and the
record written. -/
def State.refuseCrew (s : State) (p : PermitIx) (kind : FrameKind) (why : NoteCode) (step : Nat)
    (alarm : Option (Nat × WorkerState)) : State :=
  let s := s.queueNote p why step kind.code
  let s := s.modPermit p fun x => { x with lastRefusal := some (why, step) }
  (s.raise (.refused p kind why step alarm)).writePermit p

/-- A READBACK is taken (R119). -/
def State.takeReadback (s : State) (p : PermitIx) : State :=
  if (s.permit p).state = .issued then
    let s := s.modPermit p fun x => { x.setStep 1 .due with state := .active, current := 1 }
    let s := s.announce p .active
    (s.raise (.active p (s.permit p).crew)).writePermit p
  else s.refuseCrew p .readback .state 0 none

/-- Why a STEP_DONE for step k is refused, by the first test that fails (R120). -/
def PermitCtx.stepRefusal (x : PermitCtx) (k : Nat) : Option NoteCode :=
  if x.state ≠ .active ∧ x.state ≠ .restoring then some .state
  else if k ≠ x.current then some .outOfOrder
  else if x.stepState k = .due ∨ x.stepState k = .interlocked then some .notSent
  else none

/-- The check-in an accepted STEP_DONE hands over, for a named worker on the permit's list (R120). -/
def State.stepCheckIn (s : State) (p : PermitIx) (worker : Nat) : Bool × State :=
  match indexIn 192 worker with
  | some w => if (s.permit p).workers.contains worker then (true, s.checkIn w) else (false, s)
  | none => (false, s)

/-- Movement after an accepted STEP_DONE(k) (Table 6-6). -/
def State.moveAfterStep (s : State) (p : PermitIx) (k : Nat) : State :=
  let x := s.permit p
  if x.state = .active ∧ k = x.h then s.enterHolding p
  else if x.state = .restoring ∧ k = x.n then s.enterClosed p true
  else (s.modPermit p fun x => { x.setStep (k + 1) .due with current := k + 1 }).writePermit p

/-- A STEP_DONE is taken (R120). -/
def State.takeStepDone (s : State) (p : PermitIx) (k worker : Nat) : State :=
  match (s.permit p).stepRefusal k with
  | some why => s.refuseCrew p .stepDone why k none
  | none =>
    let s := s.modPermit p fun x => x.setStep k .done
    let (given, s) := s.stepCheckIn p worker
    (s.raise (.stepDone p k worker given)).moveAfterStep p k

/-- A SURRENDER is taken (R123). -/
def State.takeSurrender (s : State) (p : PermitIx) : State :=
  if (s.permit p).state = .holding then
    match s.unaccountedOn p with
    | none => s.enterSurrenderPending p .crew
    | some (w, st) => s.refuseCrew p .surrender .alarmOpen 0 (some (w, st))
  else s.refuseCrew p .surrender .state 0 none

end Sys2Proof.Machine
end

