-- ==== Sys2Proof/Machine/CodeChecker.lean ====
section
/-! DEFINITION. The code checker and the taking of coded frames (chapter 8, R118, R166). -/

namespace Sys2Proof.Machine

/-! ## The code (R146, R147) -/

/-- The subject bytes F of a coded frame: kind, permit index, step number, worker index, as carried (R146). -/
def CodedFrame.subject (f : CodedFrame) : List Byte :=
  [byteOf f.kind.code, byteOf f.permit, byteOf f.step, byteOf f.worker]

/-- The expected code: the check computation over key, subject and counter (R147). -/
def expectedCode (key : List Byte) (f : CodedFrame) : BitVec 16 :=
  check (key ++ f.subject ++ beBytes 4 f.counter.toNat)

/-- The highest counter that passes: E + CW taken in full, at most 4 294 967 294 (R148). -/
def counterBound (expected : BitVec 32) (cw : Nat) : Nat :=
  min (expected.toNat + cw) 4294967294

/-- What the code checker finds (Table 8-2). -/
inductive CodeResult
  | inLock
  | wrongCode
  | replay
  | ahead
  | passed
deriving DecidableEq, Repr

/-- The tests of Table 8-2, in order; the first that holds gives the result (R148). -/
def UnitCtx.testCode (x : UnitCtx) (cw : Nat) (f : CodedFrame) : CodeResult :=
  if x.codeLock then .inLock
  else if expectedCode x.key f ≠ f.code then .wrongCode
  else if f.counter.toNat < x.counter.toNat then .replay
  else if counterBound x.counter cw < f.counter.toNat then .ahead
  else .passed

/-- The refusal a result gives, none for a pass (Table 8-2). -/
def CodeResult.refusal : CodeResult → Option NoteCode
  | .inLock | .wrongCode => some .code
  | .replay => some .replay
  | .ahead => some .ahead
  | .passed => none

/-- The statistic counter a refusal raises (R149). -/
def CodeResult.counter : CodeResult → Option UnitCounter
  | .inLock => some .inLock
  | .wrongCode => some .wrongCode
  | .replay => some .replay
  | .ahead => some .ahead
  | .passed => none

/-- What a result does to the unit context: the counters of R149, the failure count and the lock it sets at 3, and for a
pass the failure count 0, the expected counter c + 1 and the write-back requested (Table 8-2, R149, R150; log 55 for a
failure count that stands at 3 with the lock clear). -/
def UnitCtx.applyCode (x : UnitCtx) (f : CodedFrame) (r : CodeResult) : UnitCtx :=
  let x := match r.counter with
    | some k => x.count k
    | none => x
  match r with
  | .inLock => x
  | .wrongCode | .replay | .ahead =>
    { x with failures := min 3 (x.failures + 1), codeLock := decide (3 ≤ x.failures + 1) }
  | .passed => { x with failures := 0, counter := f.counter + 1, inFlight := some f }

/-! ## Done (R59) -/

/-- A block reports an accepted frame done: V(R) advances past it, the awaiting record is cleared and REPORT_ONLY is set
due; a report that finds no awaiting record changes nothing (R59, R72). -/
def State.reportDone (s : State) (u : UnitIx) (ns : BitVec 8) (live : Bool) : State :=
  if live then
    (s.modUnit u fun x => { x with vr := ns + 1, awaiting := none }).setDueFlag u .report
  else s

/-! ## The owning blocks -/

/-- Whether a kind belongs to the Permit Engine (Table 1-3). -/
def FrameKind.isCrew : FrameKind → Bool
  | .readback | .stepDone | .surrender => true
  | _ => false

/-- The crew test: the permit is FREE or its crew unit is not the sending unit (R118). DEDUCED (log 14, unsafe): it is made
once, when the frame reaches the checker, and the mark it gives stays with the frame. -/
def State.isStray (s : State) (sender : Nat) (f : CodedFrame) : Bool :=
  f.kind.isCrew && (match indexIn 64 f.permit with
    | some p => (s.permit p).state == .free || (s.permit p).crew != sender
    | none => true)

/-- A stray crew confirmation is counted and told (R118). -/
def State.noteStray (s : State) (sender : Nat) (f : CodedFrame) : State :=
  let s := { s with pen := { s.pen with strayConfirmations := satInc s.pen.strayConfirmations } }
  match indexIn 64 f.permit with
  | some p => s.raise (.stray p sender f.kind)
  | none => s

/-- The step number a refusal names: that of a STEP_DONE, 0 for the other kinds (Table 6-5). -/
def CodedFrame.noteStep (f : CodedFrame) : Nat := if f.kind = .stepDone then f.step else 0

/-- A coded frame refused by the checker reaches its block (R118, R166). -/
def State.codedRefused (s : State) (sender : Nat) (f : CodedFrame) (why : NoteCode) : State :=
  if f.kind.isCrew then
    match f.stray, indexIn 64 f.permit with
    | false, some p => s.refuseCrew p f.kind why f.noteStep none
    | _, _ => s
  else
    match indexIn 192 f.worker with
    | some w => s.standdownRefused sender w why
    | none => s

/-- A coded frame whose counter write is complete is taken by its block, against the state as it stands (R118, R166). -/
def State.codedTaken (s : State) (sender : Nat) (f : CodedFrame) : State :=
  if f.kind.isCrew then
    match f.stray, indexIn 64 f.permit with
    | false, some p =>
      match f.kind with
      | .readback => s.takeReadback p
      | .stepDone => s.takeStepDone p f.step f.worker
      | _ => s.takeSurrender p
    | _, _ => s
  else
    match indexIn 192 f.worker with
    | some w => s.standdownTaken sender w
    | none => s

/-! ## The check (R148, R149) -/

/-- The code checker tests a coded frame of a unit: a refused frame goes back to its block and is done at once, a passed
one requests its counter write and stays awaiting done (R118, R148, R149, R150). -/
def State.checkCoded (s : State) (u : UnitIx) (frame : CodedFrame) : State :=
  let x := s.unit u
  let f := { frame with stray := s.isStray x.address frame }
  let r := x.testCode s.pen.cw f
  let s := s.modUnit u fun x => x.applyCode f r
  let s := match r.refusal with
    | some why =>
      if !x.codeLock && (s.unit u).codeLock then (s.raise (.codeLock u f.kind why)).writeUnit u else s
    | none => s
  let s := if f.stray then s.noteStray x.address f else s
  match r.refusal with
  | some why => (s.codedRefused x.address f why).reportDone u f.ns f.live
  | none => s

/-- An accepted coded frame reaches the checker; behind a write-back in flight it waits there (R150). -/
def State.toChecker (s : State) (u : UnitIx) (f : CodedFrame) : State :=
  if (s.unit u).inFlight.isSome then s.modUnit u fun x => { x with codeQueue := x.codeQueue ++ [f] }
  else s.checkCoded u f

/-- The frames waiting at the checker are tested in turn until one passes; the first argument bounds their number. -/
def State.checkWaiting (s : State) (u : UnitIx) : Nat → State
  | 0 => s
  | n + 1 =>
    let x := s.unit u
    match x.inFlight, x.codeQueue with
    | none, f :: fs => ((s.modUnit u fun x => { x with codeQueue := fs }).checkCoded u f).checkWaiting u n
    | _, _ => s

/-- The frame of a counter write that is complete: it is no longer in flight, is taken and reported done, and the next
frame waiting at the checker is tested (R118, R150; log 34 for the order of taking and done). -/
def State.handBack (s : State) (u : UnitIx) : State :=
  match (s.unit u).inFlight with
  | none => s
  | some f =>
    let s := s.modUnit u fun x => { x with inFlight := none }
    let s := (s.codedTaken (s.unit u).address f).reportDone u f.ns f.live
    s.checkWaiting u (s.unit u).codeQueue.length

/-- A counter write-back completes: the counter field is written, and the frame handed back; a bus fault leaves it in
flight (R150, R153). -/
def State.writeBackDone (s : State) (u : UnitIx) : State :=
  if (s.unit u).inFlight.isSome then
    let s := s.writeCounter u
    if s.xif.mode.busOn then s.handBack u else s
  else s

end Sys2Proof.Machine
end

