-- ==== Sys2Proof/Machine/Uplink.lean ====
section
/-! DEFINITION. One uplink frame at the Unit Link Engine: heard, report, classification, dispatch (R54 to R63, R72,
R79 to R82). -/

namespace Sys2Proof.Machine

/-! ## Heard (R55, R79 to R82) -/

/-- Entries SENT or UNPLACED pass to WAITING on the current channel when resync pending is NO (R80, R81). -/
def OutEntry.movable (e : OutEntry) : Bool := e.placement == .sent || e.placement == .unplaced

/-- An ON_AIR entry is to be sent again (R48). -/
def OutEntry.markRepeat (e : OutEntry) : OutEntry :=
  if e.placement = .onAir then { e with repeatMark := true } else e

/-- Placed due-set frames on channels other than c are taken back, and every request not placed is placed on c (R80,
R81, log 42). -/
def State.moveDueTo (s : State) (u : UnitIx) (c : Chan) : State :=
  (s.unplaceDueWhere u fun d => d != c).placeDues u DueKind.order c

/-- A REACHABLE unit is heard on another enabled channel (R80). -/
def State.roam (s : State) (u : UnitIx) (b c : Chan) : State :=
  let s := s.pullBack u
  let s := s.modUnit u fun x => { x.stopTimerAtRoam with
    out := x.out.map fun e => { e.markRepeat with retries := 0 }, current := some c }
  let s := if (s.unit u).resync = .no then s.requeue u OutEntry.movable else s
  let s := (s.moveDueTo u c).modUnit u fun x => x.count .siteChanges
  (s.raise (.siteChange u b c)).writeUnit u

/-- The search or interval of a unit ends because it was heard: the search fields and timer are cleared, and a search's
POLL request with them (R81). -/
def State.endSearch (s : State) (u : UnitIx) : State :=
  let s := if (s.unit u).reach = .searching then
      (s.unplaceDue u .poll).modDue u fun d => { d with poll := false }
    else s
  s.modUnit u fun x => { x with
    searchTimer := none, probe := none, probesSent := 0, probeRef := none, tried := [], blindUsed := false }

/-- An UNKNOWN, SEARCHING or UNREACHABLE unit is heard on an enabled channel (R81, steps 1 to 4; State.renewLink makes
step 5). -/
def State.reacquire (s : State) (u : UnitIx) (c : Chan) : State :=
  let former := (s.unit u).reach
  let s := (s.endSearch u).modUnit u fun x => { x with reach := .reachable, current := some c }
  let s := s.unplaceDueWhere u fun d => d != c
  let s :=
    if (s.unit u).resync = .no then
      (s.modUnit u fun x => { x with
        out := x.out.map fun e => if e.movable then { e with retries := 0 } else e }).requeue u OutEntry.movable
    else s
  let s :=
    if former = .unknown then s
    else (s.raise (.reacquired u c former)).modUnit u fun x => x.count .reacquisitions
  s.writeUnit u

/-- Whether hearing a unit on a channel reacquires it (R79, R81). -/
def State.reacquires (s : State) (u : UnitIx) (c : Chan) : Bool :=
  (s.port c).enabled && ((s.unit u).reach != .reachable || (s.unit u).current.isNone)

/-- The heard event's effect on reachability (R79, R82). -/
def State.heardOn (s : State) (u : UnitIx) (c : Chan) : State :=
  let x := s.unit u
  if (s.port c).enabled then
    match x.reach with
    | .reachable =>
      match x.current with
      | some b => if b = c then s else s.roam u b c
      | none => s.reacquire u c
    | .unknown | .searching | .unreachable => s.reacquire u c
  else
    match x.reach with
    | .unknown => s.beginSearch u .first
    | .unreachable => s.beginSearch u .again
    | .reachable | .searching => s

/-- A WANTED resync of a unit that was heard starts (R55, R70). -/
def State.resyncWanted (s : State) (u : UnitIx) : State :=
  if (s.unit u).resync = .wanted then s.startResync u else s

/-- The last step of a reacquisition: the requests not placed are placed on the channel, and a pull is attempted (R81,
step 5). It comes when a WANTED resync has started, so that RESYNC is the first frame of the renewed link. -/
def State.renewLink (s : State) (u : UnitIx) (c : Chan) : State := (s.placeDues u DueKind.order c).pull u

/-- A unit is heard (R55): last heard, the counter, its reachability, the supervisor told, and a WANTED resync started,
after which a reacquired unit's requests are placed (R81; log 42 for frames placed on the channel before). -/
def State.heard (s : State) (u : UnitIx) (c : Chan) : State :=
  let s := s.modUnit u fun x => { x.count .framesHeard with lastHeard := some s.second }
  let t := ((s.heardOn u c).workersHeard (s.unit u).address).resyncWanted u
  if s.reacquires u c then t.renewLink u c else t

/-! ## The report (R56, R57) -/

/-- Next-expected lies in N_a..V(S), both ends included (R56). -/
def UnitCtx.reportValid (x : UnitCtx) (r : BitVec 8) : Bool :=
  decide (x.place r ≤ x.place x.vs)

/-- The entries before next-expected are acknowledged, oldest first (R56). -/
def State.acknowledge (s : State) (u : UnitIx) (r : BitVec 8) : State :=
  let x := s.unit u
  let es := x.out.filter fun e => decide (x.place e.seq < x.place r)
  let s := (s.removeEntries u es).confirmAll es .acknowledged
  s.modUnit u fun x => { x with
    na := r
    timer := if x.out.isEmpty then .stopped else x.timer
    told := x.told || !es.isEmpty }

/-- The busy flag (R57): set, it pauses a running timer; cleared, it resumes a paused one. -/
def UnitCtx.takeBusy (x : UnitCtx) (now : Nat) (busy : Bool) : UnitCtx :=
  match x.busy, busy with
  | false, true =>
    { x with
      busy := true
      timer := match x.timer with
        | .running t => .paused (t - now)
        | t => t }
  | true, false =>
    { x with
      busy := false
      timer := match x.timer with
        | .paused d => .running (now + d)
        | t => t }
  | _, b => { x with busy := b }

/-- SENT entries go back to WAITING and ON_AIR entries are marked to be sent again (R57, R67). -/
def State.goBack (s : State) (u : UnitIx) : State :=
  (s.modUnit u fun x => { x with out := x.out.map OutEntry.markRepeat }).requeue u fun e => e.placement == .sent

/-- The busy flag of a valid report is taken, and a pull is attempted at once when it turns from set to clear (R57,
item 1). -/
def State.takeBusyFlag (s : State) (u : UnitIx) (busy : Bool) : State :=
  let cleared := (s.unit u).busy && !busy
  let s := s.modUnit u fun x => x.takeBusy s.xif.clock busy
  if cleared then s.pull u else s

/-- The report of a frame is acted on when it is valid and resync pending is NO: next-expected, and then the flags busy,
resend and lockout in this order (R56, R57). -/
def State.takeReport (s : State) (u : UnitIx) (h : Header) : State :=
  let x := s.unit u
  if h.reportValid ∧ x.resync = .no then
    if x.reportValid h.nextExpected then
      let s := (s.acknowledge u h.nextExpected).takeBusyFlag u h.busy
      let s := if h.resend then (s.goBack u).modUnit u fun x => x.count .resendRequests else s
      if h.lockout then s.startResync u else s
    else (s.modUnit u fun x => x.count .invalidReports).startResync u
  else s

/-! ## Classification (R58) -/

/-- The classes of a sequenced uplink frame (Table 3-4). -/
inductive SeqClass
  | accepted
  | duplicate
  | gap
  | lockout
deriving DecidableEq, Repr

/-- The class of a distance d from V(R), with the windows AW and BW (Table 3-4). -/
def seqClass (ahead behind d : Nat) (awaiting : Bool) : SeqClass :=
  if d = 0 then (if awaiting then .duplicate else .accepted)
  else if d ≤ ahead then .gap
  else if 256 - behind ≤ d then .duplicate
  else .lockout

/-! ## Dispatch (R59, Table 1-3) -/

/-- A coded payload as the checker reads it (R16, R146). -/
def codedOf (k : FrameKind) (ns : BitVec 8) (p : List Byte) : CodedFrame :=
  { kind := k
    permit := (byteAt p 0).toNat
    step := (byteAt p 1).toNat
    worker := (byteAt p 2).toNat
    counter := BitVec.ofNat 32 (beNat ((p.drop 3).take 4))
    code := BitVec.ofNat 16 (beNat ((p.drop 7).take 2))
    ns := ns
    live := true
    stray := false }

/-- An accepted uncoded payload is taken by its block (R99, R163). -/
def State.takeUncoded (s : State) (sender : Nat) (k : FrameKind) (p : List Byte) : State :=
  let b := fun i => (byteAt p i).toNat
  match k with
  | .checkin =>
    match indexIn 192 (b 0) with
    | some w => s.checkinFrame sender w
    | none => s
  | .orderReply =>
    match indexIn 256 (b 0), Decision.ofNum (b 1) with
    | some o, some d => s.orderReply sender o { decision := d, reason := b 2 }
    | _, _ => s
  | _ => s

/-- An accepted frame goes to its block (R59). -/
def State.accept (s : State) (u : UnitIx) (k : FrameKind) (ns : BitVec 8) (p : List Byte) : State :=
  let s := s.modUnit u fun x => { x.count .accepted with awaiting := some ns, resend := false }
  if k.coded then s.toChecker u (codedOf k ns p)
  else (s.takeUncoded (s.unit u).address k p).reportDone u ns true

/-- A sequenced frame is settled without classification in lockout or while a resync is pending, and by its class
otherwise (R58 to R63). -/
def State.takeSequenced (s : State) (u : UnitIx) (k : FrameKind) (ns : BitVec 8) (p : List Byte) : State :=
  let x := s.unit u
  if x.lockout then s.modUnit u fun x => x.count .discardedInLockout
  else if x.resync ≠ .no then s.modUnit u fun x => x.count .discardedInResync
  else
    match seqClass s.ule.ahead s.ule.behind (ns - x.vr).toNat x.awaiting.isSome with
    | .accepted => s.accept u k ns p
    | .gap => (s.modUnit u fun x => { x.count .gaps with resend := true }).setDueFlag u .report
    | .duplicate => (s.modUnit u fun x => x.count .duplicates).setDueFlag u .report
    | .lockout =>
      ((s.modUnit u fun x => { x.count .lockouts with lockout := true }).raise (.lockout u ns x.vr)).writeUnit u

/-! ## RESYNC_ACK (R72) -/

/-- The outstanding entries renumbered from 0 in their old order, with retry count 0 (R72). -/
def renumber (out : List OutEntry) : List OutEntry :=
  out.zipIdx.map fun p => { p.1 with seq := BitVec.ofNat 8 p.2, retries := 0 }

/-- The coded frames of a unit lose the awaiting record they would advance V(R) by (R59, R72). -/
def UnitCtx.dropAwaiting (x : UnitCtx) : UnitCtx :=
  { x with
    awaiting := none
    inFlight := x.inFlight.map fun f => { f with live := false }
    codeQueue := x.codeQueue.map fun f => { f with live := false } }

/-- A RESYNC_ACK: it completes a running resync, and is otherwise counted as unexpected and ignored (R72). -/
def State.resyncAck (s : State) (u : UnitIx) : State :=
  if (s.unit u).resync = .running then
    let s := s.pullBack u
    let s := s.modUnit u fun x => { x.dropAwaiting with
      vr := 0, lockout := false, resend := false, busy := false,
      out := (renumber x.out).map OutEntry.markRepeat, vs := BitVec.ofNat 8 x.out.length, na := 0 }
    let s := s.requeue u fun e => e.placement != .onAir
    let s := s.modDue u fun d => { d with resync := false }
    let s := s.modUnit u fun x => { x.count .resyncsCompleted with resync := .no, told := true }
    (s.raise (.resyncDone u (s.unit u).out.length)).writeUnit u
  else s.modUnit u fun x => x.count .unexpectedAck

/-! ## The whole frame (R54) -/

/-- The fix an EMERGENCY carries when its position-present flag is set (R15). -/
def fixOf (p : List Byte) : Option (BitVec 32 × BitVec 32) :=
  if (byteAt p 2).toNat = 1 then
    some (BitVec.ofNat 32 (beNat ((p.drop 3).take 4)), BitVec.ofNat 32 (beNat ((p.drop 7).take 4)))
  else none

/-- An EMERGENCY goes to the Lone Worker Supervisor in every uplink state (R63, R164). -/
def State.takeEmergency (s : State) (u : UnitIx) (p : List Byte) : State :=
  match indexIn 192 (byteAt p 0).toNat, EmergencyCause.ofNum (byteAt p 1).toNat with
  | some w, some cause => s.emergencyFrame (s.unit u).address w cause (fixOf p)
  | _, _ => s

/-- What a frame carries beyond its report: an EMERGENCY and the sequenced kinds have a payload, POLL_REPLY and uplink
REPORT_ONLY nothing (R58, R63). -/
def State.takePayload (s : State) (u : UnitIx) (k : FrameKind) (ns : BitVec 8) (p : List Byte) : State :=
  match k with
  | .emergency => s.takeEmergency u p
  | _ => if k.sequenced then s.takeSequenced u k ns p else s

/-- A frame of a registered unit, worked through whole (R54 to R63). DEDUCED (log 75, unsafe): of a RESYNC_ACK met with
resync pending NO the report is left unused, as R72 ignores that frame beyond the heard event; R56 speaks of every frame.
Met with a resync running, its report is not acted on by R56 itself. -/
def State.takeFrame (s : State) (u : UnitIx) (c : Chan) (k : FrameKind) (bs : List Byte) : State :=
  let h := Header.parse bs
  let s := s.heard u c
  match k with
  | .resyncAck => s.resyncAck u
  | _ => (s.takeReport u h).takePayload u k h.ns (payloadOf bs)

/-- The modes in which frames are taken and the events of the link happen (R73). -/
def PartMode.active : PartMode → Bool
  | .running | .halting | .faulted => true
  | .halted | .starting => false

/-- The engine takes the oldest passed frame of a port's receive buffer, whose place is then free; a frame from an
unregistered address is counted at the port (R34, R54). -/
def State.takeUplink (s : State) (c : Chan) : State :=
  match (s.port c).rx with
  | f :: rest =>
    if f.passed && s.xif.mode.active then
      let s := s.modPort c fun p => { p with rx := rest }
      match s.unitOf (Header.parse f.bytes).address, FrameKind.ofCode (Header.parse f.bytes).kindCode with
      | some u, some k => (s.takeFrame u c k f.bytes).settle
      | _, _ => s.modPort c fun p => p.count .unregistered
    else s
  | [] => s

end Sys2Proof.Machine
end

