-- ==== Sys2Proof/Machine/Ports.lean ====
section
/-! DEFINITION. The channel ports: modem events, credit, carrier, receive buffer, entering and leaving service, FAULT,
and the Unit Link Engine's part in the end of a transmission (chapter 2, R66, R71, R85). -/

namespace Sys2Proof.Machine

/-! ## Out of service (R35, R39, R44) -/

/-- The timers stop, and the stuck and closing flags are cleared (R35, R39). -/
def Port.stopTimers (p : Port) : Port :=
  { p with watchdog := none, stuckTimer := none, slotTimer := none, stuck := false, closing := false }

/-- Entry to FAULT (R35): everything is handed back, oldest first, the channel is out of service, the limit is
recomputed, and the fault is counted and told. -/
def State.enterFault (s : State) (c : Chan) (watchdog : Bool) : State :=
  let handed := (s.port c).queue
  let s := s.modPort c fun p => { p.stopTimers with state := .fault, queue := [] }
  let s := ((s.settleFrames handed).channelOut c).recomputeLimit
  let s := (s.modPort c fun p => p.count .faults).raise (.fault c watchdog handed.length)
  s.writeChannelStatus c

/-- CHANNEL_DISABLE of a port in IDLE or RECEIVING (R39). -/
def State.disableIdle (s : State) (c : Chan) : State :=
  let handed := (s.port c).queue
  let s := s.modPort c fun p => { p.stopTimers with state := .off, queue := [] }
  let s := ((s.settleFrames handed).channelOut c).recomputeLimit
  s.raise (.disabled c s.xif.commonLimit)

/-- CHANNEL_DISABLE of a port in TRANSMITTING: it closes, keeping the frame on air (R39). -/
def State.disableTransmitting (s : State) (c : Chan) : State :=
  let handed := (s.port c).queue.filter fun e => !e.started
  let s := s.modPort c fun p => { p with closing := true, queue := p.queue.filter fun e => e.started }
  ((s.settleFrames handed).channelOut c).recomputeLimit

/-! ## Into service (R38, R45) -/

/-- Microseconds of a credit slot (R23). -/
def slotTime : Nat := 5000

/-- Entry to service: credit full, accumulator empty, slot timer started, and IDLE or RECEIVING by the carrier
indication, with the carrier-stuck timer started when carrier is up (R38). -/
def Port.enterService (p : Port) (cfg : ChannelSettings) (now : Nat) : Port :=
  let p := { p with credit := cfg.cmax, acc := 0, slotTimer := some (now + slotTime), closing := false }
  if p.carrier then
    { p with state := .receiving, stuckTimer := some (now + cfg.stuckLimit * usPerSecond) }
  else { p with state := .idle, stuckTimer := none }

/-- The port of a channel that has taken settings enters service. -/
def State.toService (s : State) (c : Chan) : State :=
  match (s.port c).settings with
  | some cfg => s.modPort c fun p => p.enterService cfg s.xif.clock
  | none => s

/-! ## Credit (R23) -/

/-- One expiry of the credit slot timer (R23). -/
def Port.accrue (p : Port) (cfg : ChannelSettings) : Port :=
  if p.credit = cfg.cmax then { p with acc := 0 }
  else if 100 ≤ p.acc + cfg.duty then { p with acc := p.acc + cfg.duty - 100, credit := p.credit + 1 }
  else { p with acc := p.acc + cfg.duty }

/-- The credit slot timer of a port in service expires, and runs again for 5 ms (R23). -/
def State.slotExpiry (s : State) (c : Chan) : State :=
  let p := s.port c
  match p.slotTimer, p.settings with
  | some t, some cfg =>
    if p.state.inService then
      (s.advanceTo t).setPort c { p.accrue cfg with slotTimer := some (t + slotTime) }
    else s
  | _, _ => s

/-! ## Carrier (R19, R32, R33) -/

/-- Carrier-up (Table 2-3, R32); one that finds carrier up is no event (log 33). -/
def State.carrierRises (s : State) (c : Chan) : State :=
  let p := s.port c
  if p.carrier then s
  else
    let q := { p with carrier := true, carrierPin := true, carrierUpAt := s.xif.clock }
    let stuckAt := p.settings.map fun cfg => s.xif.clock + cfg.stuckLimit * usPerSecond
    match p.state with
    | .idle => (s.setPort c { q with state := .receiving, stuckTimer := stuckAt }).writeChannelStatus c
    | .transmitting => s.setPort c { q with stuckTimer := stuckAt }
    | .off | .receiving | .fault => s.setPort c q

/-- Carrier-down in service: the stuck timer stops, and a set stuck flag is cleared, told and written (R32). -/
def State.carrierEnds (s : State) (c : Chan) (q : Port) : State :=
  let p := s.port c
  let s := s.setPort c { q with stuckTimer := none, stuck := false }
  let s := if p.stuck then s.raise (.restored c ((s.xif.clock - p.carrierUpAt) / usPerSecond)) else s
  if p.stuck ∨ q.state ≠ p.state then s.writeChannelStatus c else s

/-- Carrier-down (Table 2-3, R32); one that finds carrier down is no event (log 33). -/
def State.carrierFalls (s : State) (c : Chan) : State :=
  let p := s.port c
  if p.carrier then
    let q := { p with carrier := false, carrierPin := false }
    match p.state with
    | .receiving => s.carrierEnds c { q with state := .idle }
    | .transmitting => s.carrierEnds c q
    | .off | .idle | .fault => s.setPort c q
  else s

/-- The carrier-stuck timer expires (R33). -/
def State.stuckExpiry (s : State) (c : Chan) : State :=
  let p := s.port c
  match p.stuckTimer, p.settings with
  | some t, some cfg =>
    if p.state.inService && p.carrier then
      let s := (s.advanceTo t).setPort c { p.count .stuckEvents with stuck := true, stuckTimer := none }
      (s.raise (.carrierStuck c cfg.stuckLimit)).writeChannelStatus c
    else s
  | _, _ => s

/-! ## The receive buffer (R34) -/

/-- Places of a receive buffer (R34). -/
def rxPlaces : Nat := 4

/-- A frame-received event in service: into the buffer when a place is free, else an overrun (R34). -/
def Port.receive (p : Port) (bs : List Byte) : Port :=
  if p.state.inService then
    if p.rx.length < rxPlaces then
      Port.count { p with rx := p.rx ++ [{ bytes := bs, passed := false }] } .received
    else p.count .overruns
  else p

/-- The oldest frame not yet examined is put through the receive checks: it waits as passed, or is discarded and counted
(R6 to R9, R34). DESIGN CHOICE (log 69, unsafe): a frame that fails behind a passed one not yet taken is discarded at once,
and its place is free at once; R34 says that frames are taken and discarded one at a time and in order. -/
def Port.examine (p : Port) (systemCode : Byte) : Port :=
  let ahead := p.rx.takeWhile fun f => f.passed
  match p.rx.dropWhile fun f => f.passed with
  | [] => p
  | f :: rest =>
    match receiveCheck systemCode f.bytes with
    | .passed => { p with rx := ahead ++ { f with passed := true } :: rest }
    | .checkFailure => Port.count { p with rx := ahead ++ rest } .checkFailures
    | .malformed => Port.count { p with rx := ahead ++ rest } .malformed

/-! ## The end of a transmission (R30, R66, R71, R85) -/

/-- The engine settles a sequenced frame whose entry it still holds: WAITING again when the repeat mark is set, UNPLACED
instead while the unit is not REACHABLE, else SENT; and it times the reply by the channel that sent the frame (R66, R83). A
timer stopped by a roam starts again only on the unit's new channel (R80, log 46). -/
def State.txDoneSequenced (s : State) (c : Chan) (u : UnitIx) (ref wait : Nat) : State :=
  let x := s.unit u
  match x.out.find? fun e => e.ref == ref with
  | none => s
  | some e =>
    let s :=
      if e.repeatMark then
        let s := s.modUnit u fun x => x.modEntry ref fun e => { e with repeatMark := false }
        s.requeue u fun e => e.ref == ref
      else s.modUnit u fun x => x.modEntry ref fun e => { e with placement := .sent }
    if x.resync = .no ∧ x.reach = .reachable ∧ (x.timer = .roamed → x.current = some c) then
      s.modUnit u fun x => { x with timer := if x.busy then .paused wait else .running (s.xif.clock + wait) }
    else s

/-- The engine takes the tx-done of a due-set frame: that of a RESYNC frame times the resync while it runs, and that of
the probe POLL counts and times the probe (R71, R85). -/
def State.txDoneDue (s : State) (u : UnitIx) (k : DueKind) (ref wait : Nat) : State :=
  let x := s.unit u
  match k with
  | .resync =>
    if x.resync = .running ∧ x.birth ≤ ref then
      s.modUnit u fun x => { x with timer := .running (s.xif.clock + wait) }
    else s
  | .poll =>
    if x.reach = .searching ∧ x.probeRef = some ref then
      s.modUnit u fun x => { x with
        probesSent := x.probesSent + 1, probeRef := none, searchTimer := some (s.xif.clock + wait) }
    else s
  | .alarmNote | .prompt | .report => s

/-- The engine takes the report of a transmission's end; a bulletin has no unit (R30, R66). -/
def State.txDoneReport (s : State) (c : Chan) (e : TxEntry) : State :=
  match e.unit with
  | none => s
  | some u =>
    if (s.unit u).registered then
      match e.kind.due with
      | some k => s.txDoneDue u k e.ref (s.replyWait c)
      | none => s.txDoneSequenced c u e.ref (s.replyWait c)
    else s

/-- The port after a transmission: OFF when it was closing, else RECEIVING or IDLE by the carrier indication (R30,
R39). -/
def Port.afterTransmission (p : Port) : Port :=
  let p := Port.count { p with watchdog := none, queue := p.queue.filter fun e => !e.started } .sent
  if p.closing then { p.stopTimers with state := .off }
  else { p with state := if p.carrier then .receiving else .idle }

/-- A tx-done in TRANSMITTING (R30). -/
def State.transmissionEnds (s : State) (c : Chan) : State :=
  let p := s.port c
  if p.state = .transmitting then
    let s := s.setPort c p.afterTransmission
    let s := match p.queue.find? fun e => e.started with
      | some e => s.txDoneReport c e
      | none => s
    let s := if p.closing then
        let s := s.recomputeLimit
        s.raise (.disabled c s.xif.commonLimit)
      else s
    (s.writeChannelStatus c).settle
  else s

/-! ## FAULT (R31, R35) -/

/-- A modem-alert in service (R35). -/
def State.alert (s : State) (c : Chan) : State :=
  if (s.port c).state.inService then (s.enterFault c false).settle else s

/-- The TX-done watchdog expires in TRANSMITTING: the modem is commanded to unkey, and the port enters FAULT (R31). -/
def State.watchdogExpiry (s : State) (c : Chan) : State :=
  let p := s.port c
  match p.watchdog with
  | some t =>
    if p.state = .transmitting then
      (((s.advanceTo t).setPort c { p with modemCmd := .unkey }).enterFault c true).settle
    else s
  | none => s

end Sys2Proof.Machine
end

