-- ==== Sys2Proof/Machine/FrameStart.lean ====
section
/-! DEFINITION. The start of a frame: the candidate, its payload, its header and the transmission (R2, R24, R28, R29,
R43, R69). -/

namespace Sys2Proof.Machine

/-! ## The candidate (R28, R43) -/

/-- Classes a port starts in a part mode: all in RUNNING, SAFETY in FAULTED, none else (R43). -/
def PartMode.startsClass : PartMode → TrafficClass → Bool
  | .running, _ => true
  | .faulted, k => k == .safety
  | .halted, _ | .starting, _ | .halting, _ => false

/-- The port may start a frame: IDLE, or RECEIVING with the stuck flag set, and not closing (R28). -/
def Port.mayStart (p : Port) : Bool :=
  (p.state == .idle || (p.state == .receiving && p.stuck)) && !p.closing

/-- The candidate: the oldest entry of the highest class present, of the classes the mode starts (R28, R43). -/
def Port.candidate (p : Port) (m : PartMode) : Option TxEntry :=
  TrafficClass.ranking.findSome? fun k =>
    if m.startsClass k then p.queue.find? fun e => e.kind.cls == k else none

/-- The credit allows a frame of a class that costs `slots` (R24). -/
def creditAllows (cfg : ChannelSettings) (credit : Int) (k : TrafficClass) (slots : Nat) : Bool :=
  if k = .safety then decide ((slots : Int) - cfg.cmax ≤ credit) else decide ((slots : Int) ≤ credit)

/-! ## The payload (R14, R69) -/

/-- Most workers a PROMPT carries, and most entries an ALARM_NOTE carries (R14). -/
def promptMost : Nat := 16
def alarmMost : Nat := 8

/-- The payload a request gives as it stands, with the due set once the frame is built; none when nothing is due for the
kind (R14, R69). -/
def DueSet.build (d : DueSet) : DueKind → Option (List Byte × DueSet)
  | .resync => if d.resync then some ([], { d with resync := false }) else none
  | .poll => if d.poll then some ([], { d with poll := false }) else none
  | .report => if d.report then some ([], { d with report := false }) else none
  | .prompt =>
    match d.prompt with
    | [] => none
    | ws =>
      let now := ws.take promptMost
      some (byteOf now.length :: now.map (fun w => byteOf w.val), { d with prompt := ws.drop promptMost })
  | .alarmNote =>
    match d.alarm with
    | [] => none
    | ws =>
      let now := ws.take alarmMost
      some (byteOf now.length :: now.flatMap (fun a => [byteOf a.1.val, byteOf a.2.num]),
        { d with alarm := ws.drop alarmMost })

/-- The payload an entry's frame would have if it were built now; none when its due set holds nothing for it (R28,
R29). -/
def State.payloadNow (s : State) (e : TxEntry) : Option (List Byte) :=
  match e.unit, e.kind.due with
  | some u, some k => ((s.unit u).due.build k).map Prod.fst
  | _, _ => some e.payload

/-! ## The header (R2) -/

/-- The header of an entry's frame with the values of this moment (R2). A sequenced frame carries the sequence number its
outstanding entry has now. -/
def State.headerOf (s : State) (c : Chan) (e : TxEntry) (length : Nat) : Header :=
  let base : Header :=
    { kindCode := e.kind.code, up := false, expedited := false, sequenced := e.kind.sequenced,
      address := 0, site := c.val, lockout := false, resend := false, busy := false, reportValid := false,
      systemCode := s.xif.systemCode, ns := 0, nextExpected := 0, length := length,
      timeMark := s.second % 2 ^ 16, cls := e.kind.cls.code, attempt := e.attempt }
  match e.unit with
  | none => base
  | some u =>
    let x := s.unit u
    { base with
      address := x.address
      lockout := x.lockout
      resend := x.resend
      busy := x.awaiting.isSome
      reportValid := true
      nextExpected := x.vr
      ns := (((x.out.find? fun o => o.ref == e.ref).map OutEntry.seq).getD 0) }

/-! ## The start (R29) -/

/-- A due-set frame is built: its request leaves the due set and the kind is marked not placed; when workers remain, a
new frame is placed at once, on the same channel in a blind round and otherwise where the unit's reachability puts it
(R69, R87). -/
def State.takeDue (s : State) (u : UnitIx) (k : DueKind) (c : Chan) : State :=
  let s := s.modDue u fun d => (((d.build k).map Prod.snd).getD d).setPlaced k none
  if (s.unit u).due.has k then
    if (s.unit u).reach = .unreachable then s.placeDue u k c else s.dueSet u k
  else s

/-- What the start of a frame does to its unit: REPORT_ONLY leaves the due set, since the frame carries the report; a
due-set request is taken, and an outstanding entry becomes ON_AIR (R48, R69). -/
def State.startedFor (s : State) (c : Chan) (e : TxEntry) : State :=
  match e.unit with
  | none => s
  | some u =>
    let s := s.modDue u fun d => { d with report := false }
    match e.kind.due with
    | some .report => s.modDue u fun d => d.setPlaced .report none
    | some k => s.takeDue u k c
    | none => s.modUnit u fun x => x.modEntry e.ref fun o => { o with placement := .onAir, everOnAir := true }

/-- The port once the frame has started: its cost spent, the watchdog running for A plus 100 ms, the modem commanded to
key and send, TRANSMITTING (R29). -/
def Port.transmit (p : Port) (cfg : ChannelSettings) (e : TxEntry) (frame : List Byte) (length now : Nat) : Port :=
  { p with
    credit := p.credit - cfg.slots length
    watchdog := some (now + cfg.airtime length + 100000)
    modemCmd := .keyAndSend frame
    state := .transmitting
    queue := p.queue.map fun q => if q.ref = e.ref then { q with started := true } else q }

/-- The candidate starts: the whole frame is built from the values of this moment and handed to the modem (R29). -/
def State.startFrame (s : State) (c : Chan) (cfg : ChannelSettings) (e : TxEntry) (payload : List Byte) : State :=
  let frame := frameBytes (s.headerOf c e payload.length) payload
  let s := s.modPort c fun p => p.transmit cfg e frame payload.length s.xif.clock
  (s.startedFor c e).writeChannelStatus c

/-- An entry that may not start is removed unsent, and room is signalled: with nothing due, its kind is marked not placed
(R29, R69); the frame of an energising step on a held section is UNPLACED (R137, log 50). -/
def State.removeUnsent (s : State) (c : Chan) (e : TxEntry) : State :=
  let s := s.modPort c fun p => { p with queue := p.queue.filter fun q => q.ref != e.ref }
  (s.settleFrame e).offerChannel c

/-- The port tests its candidate, and the next one after each that is removed unsent; an entry with nothing due counts
as a frame of payload length 0 (R28, R29, log 11). DESIGN CHOICE (log 50, unsafe): R137 lets no transmission of an energising
step begin on a held section and says no more of a frame that R139 does not revoke; it leaves the queue unsent. The first
argument bounds the candidates tested. -/
def State.testCandidates (s : State) (c : Chan) (cfg : ChannelSettings) : Nat → State
  | 0 => s
  | n + 1 =>
    match (s.port c).candidate s.xif.mode with
    | none => s
    | some e =>
      let payload := s.payloadNow e
      if creditAllows cfg (s.port c).credit e.kind.cls (cfg.slots ((payload.getD []).length)) then
        match payload.filter fun p => !s.frameHeld e.kind p with
        | some p => s.startFrame c cfg e p
        | none => (s.removeUnsent c e).testCandidates c cfg n
      else s

/-- A port starts a frame when it may (R28, R29). -/
def State.tryStart (s : State) (c : Chan) : State :=
  let p := s.port c
  match p.settings with
  | some cfg =>
    if p.mayStart then
      (s.testCandidates c cfg (p.queue.length + (s.offer c).length + 1)).settle
    else s
  | none => s

/-! ## The commands of the ports -/

/-- CARRIER_UP (R19, R32). -/
def execCarrierUp (c : Chan) (s : State) : Host.Outcome State Fault Refusal := .next (s.carrierRises c)

/-- CARRIER_DOWN (R19, R32). -/
def execCarrierDown (c : Chan) (s : State) : Host.Outcome State Fault Refusal := .next (s.carrierFalls c)

/-- FRAME_RECEIVED (R19, R34). -/
def execFrameReceived (c : Chan) (frame : List Byte) (s : State) : Host.Outcome State Fault Refusal :=
  .next (s.modPort c fun p => p.receive frame)

/-- RECEIVE_CHECKS (R6 to R9, R34). -/
def execReceiveChecks (c : Chan) (s : State) : Host.Outcome State Fault Refusal :=
  .next (s.modPort c fun p => p.examine s.xif.systemCode)

/-- TX_DONE (R19, R30). -/
def execTxDone (c : Chan) (s : State) : Host.Outcome State Fault Refusal := .next (s.transmissionEnds c)

/-- MODEM_ALERT (R19, R35). -/
def execModemAlert (c : Chan) (s : State) : Host.Outcome State Fault Refusal := .next (s.alert c)

/-- CREDIT_SLOT_EXPIRY (R23). -/
def execCreditSlotExpiry (c : Chan) (s : State) : Host.Outcome State Fault Refusal := .next (s.slotExpiry c)

/-- TX_DONE_WATCHDOG_EXPIRY (R31). -/
def execTxDoneWatchdogExpiry (c : Chan) (s : State) : Host.Outcome State Fault Refusal :=
  .next (s.watchdogExpiry c)

/-- CARRIER_STUCK_EXPIRY (R33). -/
def execCarrierStuckExpiry (c : Chan) (s : State) : Host.Outcome State Fault Refusal := .next (s.stuckExpiry c)

/-- FRAME_START (R28, R29). -/
def execFrameStart (c : Chan) (s : State) : Host.Outcome State Fault Refusal := .next (s.tryStart c)

/-- UPLINK_FRAME (R54). -/
def execUplinkFrame (c : Chan) (s : State) : Host.Outcome State Fault Refusal := .next (s.takeUplink c)

end Sys2Proof.Machine
end

