-- ==== Sys2Proof/Machine/Timers.lean ====
section
/-! DEFINITION. The timers of the links, of the searches, of supervision and of orders, and the completion of a counter
write (R67, R71, R85, R87, R100, R150, R159 to R162). A timer command whose timer is not running, or runs for another
purpose, is no event (log 1). -/

namespace Sys2Proof.Machine

/-! ## Retransmission and resync (R67, R71, R73) -/

/-- The oldest outstanding entry's retry count rises by 1 (R67). -/
def UnitCtx.retryOldest (x : UnitCtx) : UnitCtx :=
  match x.out with
  | [] => x
  | e :: es => { x with out := { e with retries := e.retries + 1 } :: es }

/-- The retry count of the oldest entry. -/
def UnitCtx.oldestRetries (x : UnitCtx) : Nat := (x.out.head?.map OutEntry.retries).getD 0

/-- What an expiry with entries outstanding does in RUNNING: past the retry limit a search, else go-back (R67). -/
def State.retry (s : State) (u : UnitIx) : State :=
  let s := s.modUnit u UnitCtx.retryOldest
  if s.ule.retryLimit < (s.unit u).oldestRetries then
    if (s.unit u).reach = .reachable then s.enterSearching u false else s
  else (s.goBack u).modUnit u fun x => x.count .goBacks

/-- The retransmission timer expires while no resync runs: it is stopped, and in RUNNING with entries outstanding it
is taken as a failed attempt (R67, R73, log 18). -/
def State.retransmissionExpiry (s : State) (u : UnitIx) : State :=
  let x := s.unit u
  match x.timer with
  | .running t =>
    if x.registered ∧ x.resync ≠ .running then
      let s := (s.advanceTo t).modUnit u fun x => { x with timer := .stopped }
      (if s.xif.mode = .running ∧ x.resync = .no ∧ x.out ≠ [] then s.retry u else s).settle
    else s
  | .stopped | .roamed | .paused _ => s

/-- The reply wait of a RESYNC frame expires in RUNNING or FAULTED: RESYNC is set due again up to the retry limit, and
beyond it the unit enters UNREACHABLE, its record already holding the raised counter (R71, log 45). -/
def State.resyncRetry (s : State) (u : UnitIx) : State :=
  let s := s.modUnit u fun x => { x with resyncAttempts := x.resyncAttempts + 1 }
  if (s.unit u).resyncAttempts ≤ s.ule.retryLimit then s.setDueFlag u .resync
  else (s.modUnit u fun x => x.count .resyncFailures).enterUnreachable u true

/-- The retransmission timer expires while a resync runs (R71, R73). -/
def State.resyncExpiry (s : State) (u : UnitIx) : State :=
  let x := s.unit u
  match x.timer with
  | .running t =>
    if x.registered ∧ x.resync = .running then
      let s := (s.advanceTo t).modUnit u fun x => { x with timer := .stopped }
      (if s.xif.mode = .running ∨ s.xif.mode = .faulted then s.resyncRetry u else s).settle
    else s
  | .stopped | .roamed | .paused _ => s

/-! ## Searches (R85, R87, R89) -/

/-- The reply wait after a probe is over: another POLL on the same channel, one still placed being taken back first, or
the next channel (R85, log 17). -/
def State.probeAgain (s : State) (u : UnitIx) : State :=
  let x := s.unit u
  match x.probe with
  | some c =>
    if x.probesSent < s.ule.probesPerSite then
      let s := ((s.unplaceDue u .poll).modDue u fun d => { d with poll := true }).placeDue u .poll c
      s.modUnit u fun x => { x with probeRef := x.due.placedPoll.map Placed.ref }
    else s.searchMoveOn u
  | none => s

/-- The search timer of a SEARCHING unit expires; in HALTING that has no effect but to stop it (R85, R89, log 18). -/
def State.probeExpiry (s : State) (u : UnitIx) : State :=
  let x := s.unit u
  match x.searchTimer with
  | some t =>
    if x.registered ∧ x.reach = .searching then
      let s := (s.advanceTo t).modUnit u fun x => { x with searchTimer := none }
      (if s.xif.mode = .running ∨ s.xif.mode = .faulted then s.probeAgain u else s).settle
    else s
  | none => s

/-- The search interval of an UNREACHABLE unit expires: a search with origin AGAIN starts (R87, R89, log 18). -/
def State.intervalExpiry (s : State) (u : UnitIx) : State :=
  let x := s.unit u
  match x.searchTimer with
  | some t =>
    if x.registered ∧ x.reach = .unreachable then
      let s := (s.advanceTo t).modUnit u fun x => { x with searchTimer := none }
      (if s.xif.mode = .running ∨ s.xif.mode = .faulted then s.beginSearch u .again else s).settle
    else s
  | none => s

/-! ## Counter writes (R150, R153) -/

/-- A counter write-back in flight completes, in RUNNING and HALTING (R150, R153). -/
def State.completeWriteBack (s : State) (u : UnitIx) : State :=
  if s.xif.mode = .running ∨ s.xif.mode = .halting then (s.writeBackDone u).settle else s

/-! ## Supervision (R159 to R162) -/

/-- Whether a worker's ON_DUTY timer runs to a prompt time, and not to the deadline (Table 9-2). -/
def WorkerCtx.awaitsPrompt (x : WorkerCtx) : Bool :=
  x.state == .onDuty && x.timer != x.deadline

/-- Whether a worker's timer runs to its deadline (Table 9-2). -/
def WorkerCtx.awaitsDeadline (x : WorkerCtx) : Bool :=
  x.state == .prompted || (x.state == .onDuty && x.timer == x.deadline)

/-- The supervision timer of a worker that waits for something expires, and the event is taken (R155). -/
def State.workerTimer (s : State) (w : WorkerIx) (waits : WorkerCtx → Bool) (take : State → State) : State :=
  let x := s.worker w
  match x.timer with
  | some t => if waits x then (take (s.advanceTo (t * usPerSecond))).settle else s
  | none => s

/-! ## Order expiry (R100) -/

/-- A QUEUED or HELD order reaches its expiry deadline, and the start of sending is taken for its unit (R95, R100). -/
def State.expireOrder (s : State) (o : OrderIx) : State :=
  let x := s.order o
  match x.deadline with
  | some t =>
    if x.waits then ((((s.advanceTo (t * usPerSecond)).expire o)).startSending x.unit).settle else s
  | none => s

/-! ## The commands -/

/-- COUNTER_WRITE_BACK_COMPLETE (R150). -/
def execCounterWriteBackComplete (u : UnitIx) (s : State) : Host.Outcome State Fault Refusal :=
  .next (s.completeWriteBack u)

/-- RETRANSMISSION_TIMER_EXPIRY (R67). -/
def execRetransmissionTimerExpiry (u : UnitIx) (s : State) : Host.Outcome State Fault Refusal :=
  .next (s.retransmissionExpiry u)

/-- RESYNC_REPLY_WAIT_EXPIRY (R71). -/
def execResyncReplyWaitExpiry (u : UnitIx) (s : State) : Host.Outcome State Fault Refusal :=
  .next (s.resyncExpiry u)

/-- SEARCH_TIMER_PROBE_EXPIRY (R85). -/
def execSearchTimerProbeExpiry (u : UnitIx) (s : State) : Host.Outcome State Fault Refusal :=
  .next (s.probeExpiry u)

/-- SEARCH_INTERVAL_EXPIRY (R87). -/
def execSearchIntervalExpiry (u : UnitIx) (s : State) : Host.Outcome State Fault Refusal :=
  .next (s.intervalExpiry u)

/-- PROMPT_TIME (R159). -/
def execPromptTime (w : WorkerIx) (s : State) : Host.Outcome State Fault Refusal :=
  .next (s.workerTimer w WorkerCtx.awaitsPrompt fun s => s.promptWorker w)

/-- DEADLINE (R160). -/
def execDeadline (w : WorkerIx) (s : State) : Host.Outcome State Fault Refusal :=
  .next (s.workerTimer w WorkerCtx.awaitsDeadline fun s => s.deadlineReached w)

/-- GRACE_EXPIRY (R161). -/
def execGraceExpiry (w : WorkerIx) (s : State) : Host.Outcome State Fault Refusal :=
  .next (s.workerTimer w (fun x => x.state == .silent) fun s => s.enterOverdue w)

/-- ESCALATION_EXPIRY (R162). -/
def execEscalationExpiry (w : WorkerIx) (s : State) : Host.Outcome State Fault Refusal :=
  .next (s.workerTimer w (fun x => x.state == .overdue || x.state == .escalated) fun s => s.escalateWorker w)

/-- ORDER_EXPIRY (R100). -/
def execOrderExpiry (o : OrderIx) (s : State) : Host.Outcome State Fault Refusal := .next (s.expireOrder o)

end Sys2Proof.Machine
end

