-- ==== Sys2Proof/Machine/Posting.lean ====
section
/-! DEFINITION. Posting: the page in progress, the entry a verb command takes, its outcome and the end of the page
(R181, R182). -/

namespace Sys2Proof.Machine

/-- What a verb's body answers: an outcome, or none when a bus fault ended the reading of its fields (R186). -/
abbrev VerbResult := Option VerbOutcome × State

/-- The state of a posting page. -/
def Xif.setPage (x : Xif) (p : Page) (st : PageState) : Xif :=
  match p with
  | .a => { x with postA := st }
  | .b => { x with postB := st }

def Xif.page (x : Xif) : Page → PageState
  | .a => x.postA
  | .b => x.postB

/-- The page that waits, if any, is consumed from its entry 0 (R181). -/
def Xif.nextPage (x : Xif) : Xif :=
  { x with
    consuming := x.waiting.map fun w => { page := w.1, count := w.2, next := 0, notDone := 0 }
    waiting := none }

/-- After the last entry's outcome is written the page returns to HOST and PAGE DONE is raised (R182). -/
def State.pageDone (s : State) (r : PageRun) : State :=
  (s.setXif ((s.xif.setPage r.page .host).nextPage)).raise (.pageDone r.page r.count r.notDone)

/-- The outcome is written into the entry's outcome byte; once that is done the next entry is reached, or the page is
done (R182). In FAULTED consumption stops where it stands. -/
def State.finishEntry (s : State) (r : PageRun) (o : VerbOutcome) : State :=
  let s := s.writeField r.page.postingRegion (16 * r.next + 1) [byteOf o.code]
  if s.xif.mode.busOn then
    let r := { r with next := r.next + 1, notDone := r.notDone + bit (o != .done) }
    if r.next < r.count then s.setXif { s.xif with consuming := some r } else s.pageDone r
  else s

/-- The modes in which verbs are taken: RUNNING, and HALTING for the page in progress (R182, Table 10-3). -/
def PartMode.takesVerbs : PartMode → Bool
  | .running | .halting => true
  | .halted | .starting | .faulted => false

/-- The entry the part has reached, when a page is in progress in a mode that takes verbs. -/
def State.frontEntry (s : State) : Option (PageRun × PostingEntry) :=
  if s.xif.mode.takesVerbs then s.xif.consuming.map fun r => (r, s.postingEntry r.page r.next) else none

/-- A verb command takes the entry the part has reached: the entry is read, the verb's block answers, and the outcome is
written (R182). A command for another verb than the entry's is no event (log 1). -/
def State.takeVerb (s : State) (codes : Nat → Bool) (body : PostingEntry → State → VerbResult) : State :=
  match s.frontEntry with
  | some (r, e) =>
    if codes e.verb then
      let s := s.access r.page.postingRegion false
      if s.xif.mode.busOn then
        match body e s with
        | (some o, s) => (s.settle.finishEntry r o)
        | (none, s) => s.settle
      else s.settle
    else s
  | none => s

/-- The fields a verb reads, and then its body; a bus fault while they are read ends the verb without an outcome
(R175, R186). -/
def State.readingFields (s : State) (r : Region) (n : Nat) (body : State → VerbOutcome × State) : VerbResult :=
  let s := s.readAccesses r n
  if s.xif.mode.busOn then
    let (o, s) := body s
    (some o, s)
  else (none, s)

/-- A verb's index within its table, else BAD_INDEX with nothing touched (R36, section 3.2, R94, R113, R157). -/
def State.atIndex (s : State) (n i : Nat) (body : Fin n → State → VerbResult) : VerbResult :=
  match indexIn n i with
  | some k => body k s
  | none => (some .badIndex, s)

/-- A body that reads no field answers an outcome. -/
def answered (r : VerbOutcome × State) : VerbResult := (some r.1, r.2)

/-- BAD_VERB: verb code 0 or above 20 (R182, Table 11-5). -/
def isBadVerb (v : Nat) : Bool := v == 0 || decide (20 < v)

def execBadVerb (s : State) : Host.Outcome State Fault Refusal :=
  .next (s.takeVerb isBadVerb fun _ s => (some .badVerb, s))

end Sys2Proof.Machine
end

