-- ==== Sys2Proof/Machine/UnitVerbs.lean ====
section
/-! DEFINITION. The unit verbs (R50 to R53, R151). -/

namespace Sys2Proof.Machine

/-! ## UNIT_REGISTER (R50) -/

/-- A context set up by UNIT_REGISTER (R50). `birth` is the MODEL's own (log 9). -/
def UnitHost.context (h : UnitHost) (birth : Nat) : UnitCtx :=
  { UnitCtx.unregistered with
    registered := true, address := h.address, key := h.key, counter := h.counter, hint := h.hint,
    resync := .wanted, birth := birth }

/-- UNIT_REGISTER with its host fields (R50). DESIGN CHOICE (log 74, unsafe): the other part fields are written before the
counter field; R50 and R150 name both writes and give no order. -/
def State.registerUnit (s : State) (u : UnitIx) (h : UnitHost) : VerbOutcome × State :=
  if (s.unit u).registered then (.state, s)
  else if h.address = 0 ∨ 1000 < h.address then (.malformed, s)
  else if (s.unitOf h.address).isSome then (.conflict, s)
  else
    (.done, (((s.setUnit u (h.context s.ule.nextRef)).writeUnit u).writeCounter u).testUnknown u)

/-! ## UNIT_RELEASE (R51) -/

/-- A block still refers to the unit: a live order, an open permit crewed by it, a worker bound to it that is not OFF, or
a counter write in flight (R51). -/
def State.unitInUse (s : State) (u : UnitIx) : Bool :=
  let a := (s.unit u).address
  (List.finRange 256).any (fun o => (s.order o).state.live && (s.order o).unit == a)
    || (List.finRange 64).any (fun p => (s.permit p).state.isOpen && (s.permit p).crew == a)
    || (List.finRange 192).any (fun w => (s.worker w).bound == some a && (s.worker w).state != .off)
    || (s.unit u).inFlight.isSome

/-- The context is cleared: its frames leave lists and queues, the producers are told dropped, the record's registered
field is written clear, and note queues of its ended permits are cleared (R51, R112, log 20). -/
def State.clearUnit (s : State) (u : UnitIx) : State :=
  let es := (s.unit u).out
  let a := (s.unit u).address
  let s := (s.removeEntries u es).confirmAll es .dropped
  let s := s.unplaceDueWhere u fun _ => true
  let s := (s.modUnit u fun x => { x with registered := false }).writeUnit u
  (s.setUnit u .unregistered).clearNotes a

/-- UNIT_RELEASE (R51). -/
def State.releaseUnit (s : State) (u : UnitIx) : VerbOutcome × State :=
  if !(s.unit u).registered then (.notRegistered, s)
  else if s.unitInUse u then (.state, s)
  else (.done, s.clearUnit u)

/-! ## UNIT_RESYNC (R52) and UNIT_REKEY (R53, R151) -/

/-- UNIT_RESYNC (R52). -/
def State.resyncUnit (s : State) (u : UnitIx) : VerbOutcome × State :=
  if (s.unit u).registered then (.done, s.startResync u) else (.notRegistered, s)

/-- The larger of two counters (R151). -/
def largerCounter (a b : BitVec 32) : BitVec 32 := if a.toNat < b.toNat then b else a

/-- The new key and counter taken, the failure count and lock cleared (R151). -/
def UnitCtx.rekeyed (x : UnitCtx) (h : UnitHost) : UnitCtx :=
  { x with key := h.key, counter := largerCounter h.counter x.counter, failures := 0, codeLock := false }

/-- UNIT_REKEY with the record's key and counter (R53, R151). DESIGN CHOICE (log 74, unsafe): the other part fields are
written before the counter field; R151 has them written together and gives no order. -/
def State.rekeyUnit (s : State) (u : UnitIx) (h : UnitHost) : VerbOutcome × State :=
  let x := s.unit u
  if !x.registered then (.notRegistered, s)
  else if x.inFlight.isSome then (.state, s)
  else (.done, ((s.setUnit u (x.rekeyed h)).writeUnit u).writeCounter u)

/-! ## The commands -/

/-- UNIT_REGISTER (R50); it reads four host fields. -/
def execUnitRegister (s : State) : Host.Outcome State Fault Refusal :=
  .next (s.takeVerb (· == 1) fun e s => s.atIndex 96 e.index fun u s =>
    s.readingFields .units 4 fun s => s.registerUnit u (s.unitHost u))

/-- UNIT_RELEASE (R51). -/
def execUnitRelease (s : State) : Host.Outcome State Fault Refusal :=
  .next (s.takeVerb (· == 2) fun e s => s.atIndex 96 e.index fun u s => answered (s.releaseUnit u))

/-- UNIT_RESYNC (R52). -/
def execUnitResync (s : State) : Host.Outcome State Fault Refusal :=
  .next (s.takeVerb (· == 3) fun e s => s.atIndex 96 e.index fun u s => answered (s.resyncUnit u))

/-- UNIT_REKEY (R53, R151); it reads the key and the counter field. -/
def execUnitRekey (s : State) : Host.Outcome State Fault Refusal :=
  .next (s.takeVerb (· == 4) fun e s => s.atIndex 96 e.index fun u s =>
    s.readingFields .units 2 fun s => s.rekeyUnit u (s.unitHost u))

end Sys2Proof.Machine
end

