-- ==== Sys2Proof/Machine/WorkerVerbs.lean ====
section
/-! DEFINITION. The worker verbs (R157, R158, R165, R167, Table 9-3). -/

namespace Sys2Proof.Machine

/-- A worker put on duty with its settings (R157). -/
def WorkerCtx.onDuty (x : WorkerCtx) (address : Nat) (set : Nat × Nat × Nat × Nat) (second : Nat) : WorkerCtx :=
  WorkerCtx.newInterval { x with
    bound := some address, interval := set.1, lead := set.2.1, grace := set.2.2.1, escalation := set.2.2.2,
    origin := .none, dutyBefore := true, noteUnit := none } second

/-- WORKER_ON with its host fields (R156, R157). -/
def State.workerOn (s : State) (w : WorkerIx) (h : WorkerHost) : VerbOutcome × State :=
  let x := s.worker w
  if x.state ≠ .off then (.state, s)
  else if (s.unitOf h.address).isNone then (.notRegistered, s)
  else
    let set := workerSettings w h
    let s := (s.setWorker w (x.onDuty h.address set.1 s.second)).clamps set.2
    (.done, s.writeWorker w)

/-- WORKER_OFF (R158). -/
def State.workerOff (s : State) (w : WorkerIx) : VerbOutcome × State :=
  match (s.worker w).state with
  | .onDuty | .prompted =>
    (.done, ((s.leavePrompted w).modWorker w fun x =>
      { x with state := .off, deadline := none, timer := none }).writeWorker w)
  | .off => (.state, s)
  | .silent | .overdue | .escalated | .emergency | .acknowledged => (.alarmOpen, s)

/-- ALARM_ACK (R165). DESIGN CHOICE (log 62, unsafe): the alarm origin keeps its value also where START restored a worker
in EMERGENCY with another recorded origin, or one in OVERDUE or ESCALATED with an origin other than OVERDUE, from a record
the server changed; R165 also names the value the origin has. -/
def State.alarmAck (s : State) (w : WorkerIx) : VerbOutcome × State :=
  let x := s.worker w
  match x.state with
  | .overdue | .escalated | .emergency =>
    let s := (s.setWorker w { x with state := .acknowledged, timer := none }).writeWorker w
    (.done, s.requestAlarmNote x.noteUnit w .acknowledged)
  | .off | .onDuty | .prompted | .silent | .acknowledged => (.state, s)

/-- ALARM_CLEAR (R167). -/
def State.alarmClear (s : State) (w : WorkerIx) : VerbOutcome × State :=
  let x := s.worker w
  if x.state = .acknowledged then (.done, (s.setWorker w (x.endAlarm s.second)).writeWorker w) else (.state, s)

/-- WORKER_ON (R157); it reads five host fields. -/
def execWorkerOn (s : State) : Host.Outcome State Fault Refusal :=
  .next (s.takeVerb (· == 5) fun e s => s.atIndex 192 e.index fun w s =>
    s.readingFields .workers 5 fun s => s.workerOn w (s.workerHost w))

/-- WORKER_OFF (R158). -/
def execWorkerOff (s : State) : Host.Outcome State Fault Refusal :=
  .next (s.takeVerb (· == 6) fun e s => s.atIndex 192 e.index fun w s => answered (s.workerOff w))

/-- ALARM_ACK (R165). -/
def execAlarmAck (s : State) : Host.Outcome State Fault Refusal :=
  .next (s.takeVerb (· == 7) fun e s => s.atIndex 192 e.index fun w s => answered (s.alarmAck w))

/-- ALARM_CLEAR (R167). -/
def execAlarmClear (s : State) : Host.Outcome State Fault Refusal :=
  .next (s.takeVerb (· == 8) fun e s => s.atIndex 192 e.index fun w s => answered (s.alarmClear w))

end Sys2Proof.Machine
end

