-- ==== Sys2Proof/Machine/OrderVerbs.lean ====
section
/-! DEFINITION. The order verbs (R94, R101, R104). -/

namespace Sys2Proof.Machine

/-! ## ORDER_POST (R94) -/

/-- The MALFORMED tests of ORDER_POST (R94, test 2). -/
def OrderHost.malformed (h : OrderHost) : Bool :=
  decide (480 < h.bodyLen) || decide (3 < h.priority) || decide (1440 < h.expiry)
    || (match h.permit with
        | some n => decide (63 < n)
        | none => false)

/-- The permit states in which an order naming the permit is refused (R94, test 4). -/
def PermitState.refusesOrders : PermitState → Bool
  | .free | .restoring | .closed | .cancelled => true
  | .posted | .issued | .active | .holding | .surrenderPending => false

/-- The permit an order names refuses it. -/
def State.permitRefuses (s : State) (h : OrderHost) : Bool :=
  match h.permit with
  | some n => (s.permitStateOf n).refusesOrders
  | none => false

/-- Most orders of a unit's queue (R93). -/
def queueMost : Nat := 16

/-- The context of an accepted order, QUEUED or HELD (R94). -/
def OrderHost.context (h : OrderHost) (body : List Byte) (held : Bool) (stamp second : Nat) : OrderCtx :=
  { OrderCtx.free with
    state := if held then .held else .queued
    unit := h.address, priority := h.priority, permit := h.permit, replyWanted := h.replyWanted,
    expiry := h.expiry, bodyLen := h.bodyLen, body := body, stamp := stamp, postedAt := second
    deadline := if h.expiry = 0 then none else some (second + 60 * h.expiry) }

/-- An order waits on its permit unless that is HOLDING (R94). -/
def State.heldByPermit (s : State) (h : OrderHost) : Bool :=
  match h.permit with
  | some n => s.permitStateOf n != .holding
  | none => false

/-- The stamp counter gives a stamp and rises by 1 (R92). -/
def State.bumpStamp (s : State) : State := { s with odp := { s.odp with stamp := s.odp.stamp + 1 } }

/-- ORDER_POST with its host fields and body (R94). -/
def State.postOrder (s : State) (o : OrderIx) (h : OrderHost) (body : List Byte) : VerbOutcome × State :=
  if (s.order o).state.live then (.state, s)
  else if h.malformed then (.malformed, s)
  else if (s.unitOf h.address).isNone then (.notRegistered, s)
  else if s.permitRefuses h then (.state, s)
  else if queueMost ≤ (s.orderQueue h.address).length then (.capacity, s)
  else
    let held := s.heldByPermit h
    let s := (s.setOrder o (h.context body held s.odp.stamp s.second)).bumpStamp.writeOrder o
    (.done, if held then s else s.startSending h.address)

/-! ## ORDER_WITHDRAW (R101) -/

/-- ORDER_WITHDRAW (R101). -/
def State.withdrawOrder (s : State) (o : OrderIx) : VerbOutcome × State :=
  match (s.order o).state with
  | .queued | .held => (.done, (s.modOrder o fun x => { x with state := .withdrawn }).writeOrder o)
  | .sending => (.done, (s.enterWithdraw o .withdrawn).writeOrder o)
  | .free | .delivered | .accepted | .declined | .failed | .withdrawn | .expired => (.state, s)

/-! ## BULLETIN (R104) -/

/-- A unit address belongs to group (g, m) (R11). -/
def inGroup (g m a : Nat) : Bool := g == 0 || a / 2 ^ m == g / 2 ^ m

/-- The registered units that are members of a group (R11, R104). -/
def State.members (s : State) (g m : Nat) : List UnitIx :=
  (List.finRange 96).filter fun u => (s.unit u).registered && inGroup g m (s.unit u).address

/-- The enabled channels. -/
def State.enabledChans (s : State) : List Chan :=
  (List.finRange 4).filter fun c => (s.port c).enabled

/-- The channels a bulletin goes to: the enabled ones on which a member is REACHABLE, or all enabled ones when there is
none (R104). -/
def State.bulletinChans (s : State) (g m : Nat) : List Chan :=
  let there := s.enabledChans.filter fun c =>
    (s.members g m).any fun u => (s.unit u).reach == .reachable && (s.unit u).current == some c
  if there.isEmpty then s.enabledChans else there

/-- Bulletin frames waiting on a channel's offer list or in its queue, not yet started (R104). -/
def State.bulletinsWaiting (s : State) (c : Chan) : Nat :=
  ((s.offer c).filter fun it => it.frame.kind == .bulletin).length
    + ((s.port c).queue.filter fun e => e.kind == .bulletin && !e.started).length

/-- Most bulletin frames that wait on a channel (R104). -/
def bulletinMost : Nat := 8

/-- Payload of a BULLETIN (R12, Table 11-2). -/
def bulletinPayload (g m : Nat) (body : List Byte) : List Byte := beBytes 2 (g * 64 + m * 4) ++ body

/-- One bulletin frame is placed on a channel's offer list (R104, R105). -/
def State.placeBulletin (s : State) (payload : List Byte) (c : Chan) : State :=
  s.bumpRef.join c
    { kind := .bulletin, unit := none, ref := s.ule.nextRef, attempt := 0, payload := payload, started := false }

/-- BULLETIN with its arguments, its body length and body (R104). DESIGN CHOICE (log 49, unsafe): R104 names the state, the
post stamp, the body length and the absence of segment fields, reply and failure reason; every other field of an earlier use
is cleared, which is the unit, the priority, the permit, reply wanted, the expiry, the body, posted at, the deadline, next
segment, segments acknowledged, cancelling, the cancel state and the early reply. -/
def State.postBulletin (s : State) (o : OrderIx) (g m len : Nat) (body : List Byte) : VerbOutcome × State :=
  let chans := s.bulletinChans g m
  if (s.order o).state.live then (.state, s)
  else if 1023 < g ∨ 9 < m ∨ 62 < len ∨ s.xif.commonLimit < len + 2 then (.malformed, s)
  else if s.enabledChans.isEmpty then (.channelState, s)
  else if chans.any fun c => decide (bulletinMost ≤ s.bulletinsWaiting c) then (.capacity, s)
  else
    let count := (s.members g m).length
    let s := chans.foldl (fun s c => s.placeBulletin (bulletinPayload g m body) c) s
    let s := (s.setOrder o { OrderCtx.free with state := .withdrawn, stamp := s.odp.stamp, bodyLen := len }).bumpStamp
    (.done, (s.raise (.bulletin o chans count)).writeOrder o)

/-! ## The commands -/

/-- Host fields of an order record and its body as accesses: six, and one (Table 11-11). -/
def orderHostFields : Nat := 6 + 1

/-- ORDER_POST (R94); it reads the host fields and the body. -/
def execOrderPost (s : State) : Host.Outcome State Fault Refusal :=
  .next (s.takeVerb (· == 9) fun e s => s.atIndex 256 e.index fun o s =>
    s.readingFields .orders orderHostFields fun s => s.postOrder o (s.orderHost o) (s.orderBody o (s.orderHost o).bodyLen))

/-- ORDER_WITHDRAW (R101). -/
def execOrderWithdraw (s : State) : Host.Outcome State Fault Refusal :=
  .next (s.takeVerb (· == 10) fun e s => s.atIndex 256 e.index fun o s => answered (s.withdrawOrder o))

/-- BULLETIN (R104); it reads the body length and the body. -/
def execBulletin (s : State) : Host.Outcome State Fault Refusal :=
  .next (s.takeVerb (· == 11) fun e s => s.atIndex 256 e.index fun o s =>
    s.readingFields .orders 2 fun s =>
      s.postBulletin o e.group e.mask (s.orderHost o).bodyLen (s.orderBody o (s.orderHost o).bodyLen))

end Sys2Proof.Machine
end

