-- ==== Sys2Proof/Machine/PermitVerbs.lean ====
section
/-! DEFINITION. The permit verbs (R113, R114, R124 to R127). -/

namespace Sys2Proof.Machine

/-! ## PERMIT_ISSUE (R113, R114) -/

/-- A listed worker is bound by another open permit, or is not bound to a registered unit (R113, test 4, R169). -/
def State.workerConflict (s : State) (p : PermitIx) (ws : List Nat) : Bool :=
  (workersNamed ws).any fun w =>
    (match (s.worker w).openPermit with
     | some q => q != p
     | none => false) || !(s.workerBound w)

/-- The context of an issued permit (R114). -/
def PermitHost.context (h : PermitHost) : PermitCtx :=
  { PermitCtx.free with
    state := .posted, crew := h.crew, workers := h.workers, sections := h.sections, n := h.n, h := h.h
    steps := h.steps.take h.n, headerDue := true }

/-- PERMIT_ISSUE with its host fields (R113, R114). -/
def State.issuePermit (s : State) (p : PermitIx) (h : PermitHost) : VerbOutcome × State :=
  let x := s.permit p
  if x.state.isOpen then (.state, s)
  else if x.state ≠ .free ∧ x.inFlight ≠ 0 then (.state, s)
  else if h.malformed then (.malformed, s)
  else if (s.unitOf h.crew).isNone then (.notRegistered, s)
  else if s.workerConflict p h.workers then (.conflict, s)
  else
    let s := ((s.setPermit p h.context).bindAll p (workersNamed h.workers)).announce p .posted
    (.done, (s.writePermit p).tellDue h.crew)

/-! ## The other verbs (R124 to R127) -/

/-- PERMIT_CANCEL (R127). -/
def State.permitCancelVerb (s : State) (p : PermitIx) : VerbOutcome × State :=
  match (s.permit p).state with
  | .posted | .issued | .active => (.done, s.cancelPermit p)
  | .free | .holding | .surrenderPending | .restoring | .closed | .cancelled => (.state, s)

/-- PERMIT_SURRENDER_LOCAL (R124). -/
def State.permitSurrenderVerb (s : State) (p : PermitIx) : VerbOutcome × State :=
  if (s.permit p).state = .holding then
    if (s.unaccountedOn p).isSome then (.alarmOpen, s) else (.done, s.enterSurrenderPending p .desk)
  else (.state, s)

/-- PERMIT_ACCEPT_SURRENDER (R125). -/
def State.permitAcceptVerb (s : State) (p : PermitIx) : VerbOutcome × State :=
  if (s.permit p).state = .surrenderPending then
    if (s.unaccountedOn p).isSome then (.alarmOpen, s) else (.done, s.acceptSurrender p)
  else (.state, s)

/-- PERMIT_REFUSE_SURRENDER (R126). -/
def State.permitRefuseVerb (s : State) (p : PermitIx) : VerbOutcome × State :=
  if (s.permit p).state = .surrenderPending then (.done, s.refuseSurrender p) else (.state, s)

/-! ## The commands -/

/-- Host fields of a permit record as accesses: seven, and four of each of sixteen steps (Table 11-11, log 7). -/
def permitFields : Nat := 7 + 4 * 16

/-- PERMIT_ISSUE (R113, R114). -/
def execPermitIssue (s : State) : Host.Outcome State Fault Refusal :=
  .next (s.takeVerb (· == 12) fun e s => s.atIndex 64 e.index fun p s =>
    s.readingFields .permits permitFields fun s => s.issuePermit p (s.permitHost p))

/-- PERMIT_CANCEL (R127). -/
def execPermitCancel (s : State) : Host.Outcome State Fault Refusal :=
  .next (s.takeVerb (· == 13) fun e s => s.atIndex 64 e.index fun p s => answered (s.permitCancelVerb p))

/-- PERMIT_SURRENDER_LOCAL (R124). -/
def execPermitSurrenderLocal (s : State) : Host.Outcome State Fault Refusal :=
  .next (s.takeVerb (· == 14) fun e s => s.atIndex 64 e.index fun p s => answered (s.permitSurrenderVerb p))

/-- PERMIT_ACCEPT_SURRENDER (R125). -/
def execPermitAcceptSurrender (s : State) : Host.Outcome State Fault Refusal :=
  .next (s.takeVerb (· == 15) fun e s => s.atIndex 64 e.index fun p s => answered (s.permitAcceptVerb p))

/-- PERMIT_REFUSE_SURRENDER (R126). -/
def execPermitRefuseSurrender (s : State) : Host.Outcome State Fault Refusal :=
  .next (s.takeVerb (· == 16) fun e s => s.atIndex 64 e.index fun p s => answered (s.permitRefuseVerb p))

end Sys2Proof.Machine
end

