-- ==== Sys2Proof/Machine/ChannelVerbs.lean ====
section
/-! DEFINITION. The channel verbs (R36 to R40, Table 2-7). -/

namespace Sys2Proof.Machine

/-- An L_max lies below the largest segment payload of the orders now SENDING (R37, R38). -/
def State.belowSegments (s : State) (lmax : Option Nat) : Bool :=
  decide (lmax.getD 0 < s.largestSegment)

/-- A channel verb that was taken: DONE, with the status block written (R36, R41). -/
def State.channelDone (s : State) (c : Chan) : VerbOutcome × State := (.done, s.writeChannelStatus c)

/-- CHANNEL_SET with the settings read (R37). -/
def State.setChannel (s : State) (c : Chan) : VerbOutcome × State :=
  let (cfg, log) := s.channelSettings c
  if !(usableLmax cfg.lmax) then (.malformed, s)
  else if s.belowSegments cfg.lmax then (.inUse, s)
  else ((s.modPort c fun p => p.applySettings cfg).clamps log).channelDone c

/-- CHANNEL_ENABLE (R38). The start of sending comes after the searches and the ENABLED notice (log 72). -/
def State.enableChannel (s : State) (c : Chan) : VerbOutcome × State :=
  let p := s.port c
  if p.state ≠ .off then (.channelState, s)
  else if !(usableLmax p.lmax) then (.malformed, s)
  else if s.belowSegments p.lmax then (.inUse, s)
  else
    let s := (s.toService c).recomputeLimit.channelIn
    let s := (s.raise (.enabled c p.lmax s.xif.commonLimit)).startSendingAll
    s.channelDone c

/-- CHANNEL_DISABLE (R39, Table 2-7). -/
def State.disableChannel (s : State) (c : Chan) : VerbOutcome × State :=
  let p := s.port c
  match p.state with
  | .off => s.channelDone c
  | .idle | .receiving => (s.disableIdle c).channelDone c
  | .transmitting => if p.closing then s.channelDone c else (s.disableTransmitting c).channelDone c
  | .fault => (.channelState, s)

/-- CHANNEL_RESET (R40, Table 2-7). -/
def State.resetChannel (s : State) (c : Chan) : VerbOutcome × State :=
  match (s.port c).state with
  | .off => s.channelDone c
  | .fault => ((s.modPort c fun p => { p with state := .off }).raise (.off c)).channelDone c
  | .idle | .transmitting | .receiving => (.channelState, s)

/-- CHANNEL_SET (R37); it reads seven fields of the settings block, once the port is found OFF (R36). -/
def execChannelSet (s : State) : Host.Outcome State Fault Refusal :=
  .next (s.takeVerb (· == 17) fun e s => s.atIndex 4 e.index fun c s =>
    if (s.port c).state = .off then s.readingFields .config settingsFields fun s => s.setChannel c
    else (some .channelState, s))

/-- CHANNEL_ENABLE (R38). -/
def execChannelEnable (s : State) : Host.Outcome State Fault Refusal :=
  .next (s.takeVerb (· == 18) fun e s => s.atIndex 4 e.index fun c s => answered (s.enableChannel c))

/-- CHANNEL_DISABLE (R39). -/
def execChannelDisable (s : State) : Host.Outcome State Fault Refusal :=
  .next (s.takeVerb (· == 19) fun e s => s.atIndex 4 e.index fun c s => answered (s.disableChannel c))

/-- CHANNEL_RESET (R40). -/
def execChannelReset (s : State) : Host.Outcome State Fault Refusal :=
  .next (s.takeVerb (· == 20) fun e s => s.atIndex 4 e.index fun c s => answered (s.resetChannel c))

end Sys2Proof.Machine
end

