-- ==== Sys2Proof/Machine/StartUp.lean ====
section
/-! DEFINITION. START: its preparation, the configuration stage, the restore stages and its end (R45, R77, R108, R133,
R143, R144, R173, R177, R178). -/

namespace Sys2Proof.Machine

/-! ## Dropping every block's state (R44, R76, R107, R132, R134, R172) -/

/-- The ports OFF and every block without contexts; host memory, the Exchange Interface's own registers and the queue of
commands stay (R44, R76, R107, R132, R134, R172, R180). -/
def State.dropBlocks (s : State) : State :=
  { s with
    ports := s.ports.map fun p => .off p.carrierPin p.modemCmd
    offers := State.reset.offers
    ule := State.reset.ule
    units := State.reset.units
    odp := State.reset.odp
    orders := State.reset.orders
    pen := State.reset.pen
    permits := State.reset.permits
    holds := State.reset.holds
    lws := State.reset.lws
    workers := State.reset.workers }

/-! ## Stages -/

/-- A stage is made while START has not met a bus fault (R178). -/
def State.stage (f : State → State) (s : State) : State :=
  if s.xif.mode = .starting then f s else s

/-- A stage that reads `n` fields of a region first. -/
def State.reading (r : Region) (n : Nat) (f : State → State) (s : State) : State :=
  (s.readAccesses r n).stage f

/-! ## Preparation (R177) -/

/-- The Exchange Interface as an accepted START prepares it (R177). -/
def Xif.prepared (x : Xif) : Xif :=
  { Xif.reset with
    xbase := x.xbase, mode := .starting, mask := x.mask, noteData := x.noteData, busPlan := x.busPlan
    systemCode := x.systemCode }

/-- The preparation: the Exchange Interface's pages, pending classes, clock and clamp log, which is written (R177). -/
def State.prepare (s : State) : State :=
  ({ s with xif := s.xif.prepared }.dropBlocks).writeFields .config 0 [(0x0E0, [0]), (0x0E1, [0])]

/-! ## Configuration stage (R177, R17, R47, R78, R146, R156) -/

/-- System code and interrupt mask are taken as they stand (R177). -/
def State.configHead (s : State) : State :=
  { s with xif := { s.xif with
      systemCode := byteOf (s.field .config 0x000 1), mask := BitVec.ofNat 8 (s.field .config 0x001 1) } }

/-- A port takes its settings and is prepared (R17, R45). -/
def State.configPort (s : State) (c : Chan) : State :=
  let (cfg, log) := s.channelSettings c
  (s.modPort c fun p => { p.applySettings cfg with stats := Vector.replicate 8 0 }).clamps log

/-- The link settings (R47, Table 3-2). -/
def State.configLink (s : State) : State :=
  let f := fun off => s.field .config off 1
  let wd := clampOrDefault .config 0x002 1 8 4 (f 0x002)
  let aw := clampOrDefault .config 0x003 1 63 7 (f 0x003)
  let bw := clampOrDefault .config 0x004 1 127 32 (f 0x004)
  let behind := min bw.1 (254 - aw.1)
  let lower : List ClampEntry :=
    if behind = bw.1 then [] else [{ source := .config, setting := 0x004, found := bw.1, used := behind }]
  let rl := clampOrDefault .config 0x005 1 15 4 (f 0x005)
  { s with ule := { s.ule with window := wd.1, ahead := aw.1, behind := behind, retryLimit := rl.1 } }.clamps
    (wd.2 ++ aw.2 ++ bw.2 ++ lower ++ rl.2)

/-- The search settings (R78, Table 4-2). -/
def State.configSearch (s : State) : State :=
  let ps := clampOrDefault .config 0x006 1 3 2 (s.field .config 0x006 1)
  let si := clampOrDefault .config 0x007 1 60 5 (s.field .config 0x007 1)
  { s with ule := { s.ule with probesPerSite := ps.1, searchInterval := si.1 } }.clamps (ps.2 ++ si.2)

/-- The code counter window (R146). -/
def State.configCodes (s : State) : State :=
  let cw := clampTo .config 0x008 0 15 (s.field .config 0x008 1)
  { s with pen := { s.pen with cw := cw.1 } }.clamps cw.2

/-- The coverage window (R156). -/
def State.configCoverage (s : State) : State :=
  let cov := clampOrDefault .config 0x009 1 60 10 (s.field .config 0x009 1)
  { s with lws := { s.lws with coverage := cov.1 } }.clamps cov.2

/-- The configuration stage (R177). -/
def State.configStage (s : State) : State :=
  let s := s.reading .config 2 State.configHead
  let s := forAll (fun c s => s.stage (State.reading .config 8 fun s => s.configPort c)) s
  let s := s.stage (State.reading .config 4 State.configLink)
  let s := s.stage (State.reading .config 2 State.configSearch)
  let s := s.stage (State.reading .config 1 State.configCodes)
  s.stage (State.reading .config 1 State.configCoverage)

/-! ## Unit stage (R77) -/

/-- The context a registered unit record restores (R77). -/
def State.restoredUnit (s : State) (u : UnitIx) (flags : Nat) : UnitCtx :=
  { (s.unitHost u).context s.ule.nextRef with
    failures := flags / 8 % 4
    codeLock := flags.testBit 5
    current := indexIn 4 (s.field .units (64 * u.val + 0x11) 1) }

/-- A registered unit record is restored, or dropped with its registered field written clear, and the spare bit of that
byte 0 (R77, R188, log 20). DESIGN CHOICE (log 63, unsafe): a restored unit's record is not written, though its
reachability, resync pending and counters are set other than recorded; R74 speaks of changes, R77 of no write. -/
def State.restoreUnit (s : State) (u : UnitIx) (flags : Nat) : State :=
  let a := (s.unitHost u).address
  let drop := fun duplicate =>
    (s.writeField .units (64 * u.val + 0x0F) [byteOf (flags % 128 / 2 * 2)]).raise (.startDropped u a duplicate)
  if a = 0 ∨ 1000 < a then drop false
  else if (s.unitOf a).isSome then drop true
  else s.setUnit u (s.restoredUnit u flags)

/-- One unit record: its flags are read, and when registered is set its other fields (R77). -/
def State.startUnit (u : UnitIx) (s : State) : State :=
  s.stage (State.reading .units 1 fun s =>
    let flags := s.field .units (64 * u.val + 0x0F) 1
    if flags.testBit 7 then State.reading .units 5 (fun s => s.restoreUnit u flags) s else s)

/-! ## Worker stage (R173) -/

/-- A time of 24 bits, all ones for none. -/
def time24 (v : Nat) : Option Nat := if v = 0xFFFFFF then none else some v

/-- An address, 0 for none. -/
def addressOf (v : Nat) : Option Nat := if v = 0 then none else some v

/-- The fields of a worker record that START takes, its settings brought into range without a log entry (R156, R173; log 56
for a bound or note unit above 1000). -/
def State.recordedWorker (s : State) (w : WorkerIx) : WorkerCtx :=
  let f := fun off n => s.field .workers (32 * w.val + off) n
  let flags := f 0x06 1
  let set := f 0x0A 2
  let units := f 0x0C 3
  let host : WorkerHost :=
    { address := 0, interval := f 0x09 1, lead := set / 2 ^ 11, grace := set / 2 ^ 5 % 64, escalation := set % 32 }
  let settings := (workerSettings w host).1
  { WorkerCtx.off with
    state := WorkerState.ofNum (flags / 32)
    bound := addressOf (units / 2 ^ 14)
    interval := settings.1
    lead := settings.2.1
    grace := settings.2.2.1
    escalation := settings.2.2.2
    origin := AlarmOrigin.ofNum (flags / 8 % 4)
    dutyBefore := flags.testBit 2
    noteUnit := addressOf (units / 2 ^ 4 % 1024)
    escCount := BitVec.ofNat 8 (f 0x08 1)
    lastCheckin := time24 (f 0x15 3)
    position :=
      if flags.testBit 1 then some (BitVec.ofNat 32 (f 0x18 4), BitVec.ofNat 32 (f 0x1C 4)) else none }

/-- A worker is restored by its recorded state, times counted from 0 (R173). DESIGN CHOICE (log 68, unsafe): its record is
not written, also where the state, the deadline or the open permit is other than recorded; R171 speaks of changes, R173 of
no write. -/
def State.restoreWorker (s : State) (w : WorkerIx) : State :=
  let x := s.recordedWorker w
  match x.state with
  | .off => s.setWorker w x
  | .onDuty | .prompted | .silent => s.setWorker w (x.newInterval 0)
  | .overdue => s.setWorker w { x with timer := some (x.escalation * 60) }
  | .escalated => (s.setWorker w { x with timer := some (x.escalation * 60) }).requestPoll w
  | .emergency => (s.setWorker w x).requestAlarmNote x.noteUnit w .received
  | .acknowledged => (s.setWorker w x).requestAlarmNote x.noteUnit w .acknowledged

/-- One worker record, in seven fields (R173). -/
def State.startWorker (w : WorkerIx) (s : State) : State :=
  s.stage (State.reading .workers 7 fun s => s.restoreWorker w)

/-! ## Permit stage (R133, R143, R144) -/

/-- A count brought into a range (R133). -/
def inRange (lo hi v : Nat) : Nat := max lo (min hi v)

/-- The permit context a record gives before its state is considered: counts in range, lists and steps as recorded, and
the part fields; a refusal code that names no note code gives no last refusal (R133, log 26). -/
def State.recordedPermit (s : State) (p : PermitIx) : PermitCtx :=
  let f := fun off n => s.field .permits (256 * p.val + off) n
  let n := inRange 1 16 (f 0x02 1)
  let flags := f 0xA2 1
  { PermitCtx.free with
    state := PermitState.ofNum (f 0xA0 1)
    crew := f 0x00 2
    workers := (List.range (inRange 0 8 (f 0x05 1))).map fun k => f (0x0E + k) 1
    sections := (List.range (inRange 1 8 (f 0x04 1))).map fun k => f (0x06 + k) 1
    n := n
    h := inRange 1 n (f 0x03 1)
    steps := ((s.permitHost p).steps.take n).zipIdx.map fun st =>
      { st.1 with state := StepState.ofNum (f (0xA5 + st.2) 1) }
    current := f 0xA1 1
    headerSent := flags.testBit 7
    source := SurrenderSource.ofNum (flags / 32 % 4)
    lastRefusal := (NoteCode.ofNum (f 0xA3 1)).map fun why => (why, f 0xA4 1) }

/-- Steps before the current one DONE, those after it PENDING, and the current one as given. -/
def PermitCtx.stepsAround (x : PermitCtx) (current : Nat) (st : StepState) : PermitCtx :=
  { x with
    current := current
    steps := (x.steps.zipIdx 1).map fun p =>
      { p.1 with state := if p.2 < current then .done else if p.2 = current then st else .pending } }

/-- An ended permit has nothing due, and no step is INTERLOCKED after START: a step recorded DUE, SENT or INTERLOCKED is
taken as PENDING (R133, R143, log 26). -/
def PermitCtx.ended (x : PermitCtx) (st : PermitState) : PermitCtx :=
  { x with
    state := st
    steps := x.steps.map fun k => if k.state = .done then k else { k with state := .pending } }

/-- The context START restores from a recorded one, by its recorded state (R133); where it differs from the recorded one,
the record is not written (log 60). -/
def PermitCtx.restored (x : PermitCtx) : PermitCtx :=
  match x.state with
  | .free => x.ended .free
  | .closed => x.ended .closed
  | .cancelled => x.ended .cancelled
  | .posted | .issued => { x.stepsAround 0 .pending with headerDue := true, headerSent := false }
  | .active =>
    { x.stepsAround (if x.current = 0 ∨ x.h < x.current then 1 else x.current) .due with headerSent := false }
  | .holding | .surrenderPending => { x.stepsAround x.h .done with headerSent := false }
  | .restoring =>
    if x.h = x.n then x.ended .closed
    else
      { x.stepsAround (if x.current ≤ x.h ∨ x.n < x.current then x.h + 1 else x.current) .due with
        headerSent := false }

/-- The first listed worker that an earlier permit restored open already binds, with that permit (R144). DESIGN CHOICE
(log 67, unsafe): of several such workers the fault detail names the first in the record's worker list; R144 names one. -/
def State.boundEarlier (s : State) (p : PermitIx) : List WorkerIx → Option (WorkerIx × PermitIx)
  | [] => none
  | w :: ws =>
    match (s.worker w).openPermit with
    | some q => if q = p then s.boundEarlier p ws else some (w, q)
    | none => s.boundEarlier p ws

/-- A permit restored without a conflict: bound workers, holds, and CREW_MISSING when no context holds its crew's
address (R133, R143, R144). DESIGN CHOICE (log 60, unsafe): the permit record is not written, also where the restored
permit or step states are not the recorded ones (R132 speaks of changes of state, R133 of no write). -/
def State.restorePermit (s : State) (p : PermitIx) (x : PermitCtx) : State :=
  let s := s.setPermit p x
  if x.state.isOpen then
    let s := s.bindAll p (workersNamed x.workers)
    let s := if x.state.holds then s.raiseHolds x.holdSections else s
    if (s.unitOf x.crew).isNone then s.raise (.crewMissing p x.crew) else s
  else s

/-- Part fields of a permit record as accesses: state, current step, flags, last refusal, sixteen step states. -/
def permitPartFields : Nat := 4 + 16

/-- The permit stage over a list of permits: it stops at the first worker conflict, which it answers (R144). -/
def State.permitStage (s : State) : List PermitIx → State × Option FaultInfo
  | [] => (s, none)
  | p :: ps =>
    if s.xif.mode = .starting then
      let s := s.readAccesses .permits (permitFields + permitPartFields)
      if s.xif.mode = .starting then
        let x := (s.recordedPermit p).restored
        match if x.state.isOpen then s.boundEarlier p (workersNamed x.workers) else none with
        | some (w, q) => (s, some (.startConflict p w q))
        | none => (s.restorePermit p x).permitStage ps
      else (s, none)
    else (s, none)

/-! ## Order stage (R108) -/

/-- A reply of two recorded bytes, decision and reason; a decision code that names none gives no reply (log 25). -/
def replyOf (decision reason : Nat) : Option Reply :=
  (Decision.ofNum decision).map fun d => { decision := d, reason := reason }

/-- 0 for unset: Table 11-11 of the segment count, log 37 of the segment body size. -/
def unsetOf (v : Nat) : Option Nat := if v = 0 then none else some v

/-- The order context a record's part fields give (R108, log 35). -/
def State.recordedOrder (s : State) (o : OrderIx) : OrderCtx :=
  let f := fun off n => s.field .orders (512 * o.val + off) n
  { OrderCtx.free with
    state := OrderState.ofNum (f 0x00A 1)
    failure := FailReason.ofNum (f 0x00B 1)
    stamp := f 0x00C 4
    segSize := unsetOf (f 0x010 1)
    segCount := unsetOf (f 0x011 1)
    acked := f 0x012 1
    cancelling := cancellingOfNum (f 0x013 1)
    earlyReply := replyOf (f 0x014 1) (f 0x015 1)
    reply := replyOf (f 0x016 1) (f 0x017 1) }

/-- The permit states in which START restores an order that names the permit (R108). -/
def PermitState.keepsOrders : PermitState → Bool
  | .posted | .issued | .active | .holding | .surrenderPending => true
  | .free | .restoring | .closed | .cancelled => false

/-- A live record's context with the host fields and body, before its fate; its segment fields, segments acknowledged,
cancelling and early reply are unset in every fate (R108, log 25). -/
def OrderCtx.live (x : OrderCtx) (h : OrderHost) (body : List Byte) : OrderCtx :=
  { OrderCtx.free with
    state := x.state, unit := h.address, priority := h.priority, permit := h.permit, replyWanted := h.replyWanted
    expiry := h.expiry, bodyLen := body.length, body := body, stamp := x.stamp, reply := x.reply
    failure := x.failure }

/-- The permit an order names was not restored in a state that keeps it (R108). -/
def State.permitGone (s : State) (permit : Option Nat) : Bool :=
  match permit with
  | some n => !(s.permitStateOf n).keepsOrders
  | none => false

/-- The orders beyond the sixteenth of a unit's queue become FAILED (R108). -/
def State.trimQueue (s : State) (address : Nat) : State :=
  ((s.orderQueue address).drop queueMost).foldl (fun s o => s.failOrder o .queueFull) s

/-- A live order record is restored by the fate of its unit and permit, and its unit's queue is kept to sixteen as it
joins (R93, R108; log 25 for the values a record may hold). The records of those made FAILED alone are written (log 54). -/
def State.restoreLive (s : State) (o : OrderIx) (recorded : OrderCtx) : State :=
  let h := s.orderHost o
  let x := recorded.live h (s.orderBody o h.bodyLen)
  if (s.unitOf h.address).isNone then (s.setOrder o x).failOrder o .unitGone
  else if s.permitGone h.permit then (s.setOrder o x).failOrder o .permitGone
  else if recorded.state = .delivered then (s.setOrder o x).trimQueue h.address
  else
    let remaining := s.field .orders (512 * o.val + 0x018) 4
    (s.setOrder o { x with
      state := if s.heldByPermit h then .held else .queued
      deadline := if h.expiry = 0 ∨ recorded.state = .sending then none else some remaining }).trimQueue h.address

/-- Part fields of an order record as accesses (Table 11-11). -/
def orderPartFields : Nat := 10

/-- One order record: its part fields are read, and of a live one its host fields and body (R108, R186, log 35). -/
def State.startOrder (o : OrderIx) (s : State) : State :=
  s.stage (State.reading .orders orderPartFields fun s =>
    let x := s.recordedOrder o
    if x.state.live then State.reading .orders orderHostFields (fun s => s.restoreLive o x) s else s.setOrder o x)

/-- The stamp counter after the order stage: one more than the largest post stamp of a record not FREE (R108). -/
def State.nextStamp (s : State) : Nat :=
  (List.finRange 256).foldl
    (fun acc o => if (s.order o).state = .free then acc else max acc ((s.order o).stamp + 1)) 0

/-- The order stage (R108). -/
def State.orderStage (s : State) : State :=
  let s := forAll State.startOrder s
  s.stage fun s => { s with odp := { s.odp with stamp := s.nextStamp } }

/-! ## The end of START (R45, R178) -/

/-- The service clock has started from 0: a restored order that waits with its expiry set and nothing remaining expires
(R100, R108). Several such orders expire in index order (log 59). -/
def State.expireAtStart (o : OrderIx) (s : State) : State :=
  s.stage fun s => if (s.order o).waits && (s.order o).deadline == some 0 then s.expire o else s

/-- The enable-at-START setting of a channel as configuration holds it; a byte other than 1 is no (R45, log 44). -/
def State.enableAtStart (s : State) (c : Chan) : Bool :=
  s.field .config (settingsOffset c + 0xB) 1 == 1

/-- The notices and status block of a channel once it has reached its state at the end of START (R21, R45). -/
def State.announceChannel (enable : Bool) (c : Chan) (s : State) : State :=
  let p := s.port c
  let s :=
    if enable then
      if usableLmax p.lmax then s.raise (.enabled c p.lmax s.xif.commonLimit) else s.raise (.leftOff c p.lmax)
    else s
  s.writeChannelStatus c

/-- The channels enter service, the common segment limit being computed once over them (R45); their notices and status
blocks come channel by channel, from 0 to 3 (log 51). A bus fault among these leaves them all OFF (R178, log 7). -/
def State.channelsIn (s : State) : State :=
  let enables : Vector Bool 4 := Vector.ofFn fun c => s.enableAtStart c
  let t := forAll (fun c s => if enables[c.val] && usableLmax (s.port c).lmax then s.toService c else s) s
  let t := forAll (fun c s => s.announceChannel enables[c.val] c) t.recomputeLimit
  if t.xif.mode = .starting then t else State.recomputeLimit { t with ports := s.ports }

/-- The counts of the STARTED notice (R178, log 23). DESIGN CHOICE (log 77, unsafe): the live orders are counted when the
notice is raised, so that one restored live which expired as the clock started is not among them; R178 does not say. -/
def State.startedNotice (s : State) : Notice :=
  .started ((List.finRange 96).countP fun u => (s.unit u).registered)
    ((List.finRange 192).countP fun w => (s.worker w).state != .off)
    ((List.finRange 64).countP fun p => (s.permit p).state.isOpen)
    ((List.finRange 256).countP fun o => (s.order o).state.live)

/-- The end of START when no bus fault has ended it: the clock starts from 0, orders with nothing remaining expire, the
channels enter service, and the mode becomes RUNNING, or FAULTED after a worker conflict; the engine then asks for what
is due (R84, R108, R178). DESIGN CHOICE (log 59, unsafe): several orders with nothing remaining expire, and raise their
EXPIRED notices, in index order, 0 to 255; R108 gives no order among them. The start of sending comes after the STARTED
notice (log 72), and the tests of the UNKNOWN units after that (log 71). -/
def State.endOfStart (s : State) (conflict : Option FaultInfo) : State :=
  let s := forAll State.expireAtStart { s with xif := { s.xif with clockOn := true } }
  let s := s.stage State.channelsIn
  let s := s.stage fun s =>
    match conflict with
    | some f => s.enterFaulted f
    | none =>
      let s := { s with xif := { s.xif with mode := .running } }
      (s.raise s.startedNotice).startSendingAll
  s.testAllUnknown.settle

/-- START, once accepted (R177, R178). -/
def State.runStart (s : State) : State :=
  let s := s.prepare.stage State.configStage
  let s := forAll State.startUnit s
  let s := forAll State.startWorker s
  let (s, conflict) := s.permitStage (List.finRange 64)
  let s := if conflict.isNone then s.orderStage else s
  if s.xif.mode = .starting then s.endOfStart conflict else s.testAllUnknown.settle

end Sys2Proof.Machine
end

