-- ==== Sys2Proof/Machine/Control.lean ====
section
/-! DEFINITION. The part-wide commands and the registers: POWER_ON, START, HALT, RESET, HALT_COMPLETE, XBASE, POST, NOTE,
the periodic status and bus timeouts (chapter 10). -/

namespace Sys2Proof.Machine

/-! ## RESET and power-on (R152, R180) -/

/-- The modes in which a counter write-back is under way (R150, R153). -/
def PartMode.writesCounters : PartMode → Bool
  | .running | .halting => true
  | .halted | .starting | .faulted => false

/-- A unit's counter write that is abandoned has reached the exchange area or not, by a free value (R152, log 8). -/
def State.abandonWrite (u : UnitIx) (s : State) : State :=
  if (s.unit u).registered && (s.unit u).inFlight.isSome then
    let s' := { s with freeDraw := s.freeDraw + 1 }
    if Config.abandonedWriteLands s.freeDraw then
      s'.setMem (s.mem.writeBytes (s.areaAddr .units (64 * u.val + 0x0A)) (beBytes 4 (s.unit u).counter.toNat))
    else s'
  else s

/-- Every counter write under way is abandoned (R152, R180). -/
def State.abandonWrites (s : State) : State :=
  if s.xif.mode.writesCounters then forAll State.abandonWrite s else s

/-- The Exchange Interface after RESET: XBASE and the fault code and detail keep their values (R180), and what the last
read of NOTE returned stays read. -/
def Xif.afterReset (x : Xif) : Xif :=
  { Xif.reset with xbase := x.xbase, fault := x.fault, noteData := x.noteData }

/-- Every modem is commanded to unkey (R180). -/
def State.unkeyAll (s : State) : State :=
  { s with ports := s.ports.map fun p => { p with modemCmd := .unkey } }

/-- RESET, in any mode (R180). -/
def State.resetPart (s : State) : State :=
  let s := s.abandonWrites.unkeyAll.dropBlocks
  { s with xif := s.xif.afterReset }

/-- Power-on: as RESET, with XBASE 0 and fault code NONE, and each carrier indication at the level its modem presents
(R44, R180). -/
def State.powerOn (s : State) (levels : Vector Bool 4) : State :=
  let s := s.resetPart
  { s with xif := Xif.reset, ports := levels.map fun up => .off up .unkey }

/-! ## START and HALT (R176, R179) -/

/-- A START command: in HALTED it is accepted, or refused NO_BASE when XBASE is 0; elsewhere it is ignored (R176). -/
def State.startCommand (s : State) : State :=
  if s.xif.mode = .halted then
    if s.xif.xbase = 0 then { s with xif := { s.xif with fault := .noBase } } else s.runStart
  else s

/-- HALT in RUNNING: a page handed over and waiting returns to HOST unread (R179). -/
def State.beginHalt (s : State) : State :=
  let s := { s with xif := { s.xif with mode := .halting } }
  match s.xif.waiting with
  | some (p, _) => (s.setXif { s.xif.setPage p .host with waiting := none }).raise (.pageReturned p)
  | none => s

/-- A HALT command (R176). -/
def State.haltCommand (s : State) : State :=
  match s.xif.mode with
  | .running => s.beginHalt
  | .faulted => s.resetPart
  | .halted | .starting | .halting => s

/-! ## Completion of HALT (R179) -/

/-- A stage of HALT is made while no bus fault has ended it (R179, R186). -/
def State.haltStage (s : State) (f : State → State) : State :=
  if s.xif.mode = .halting then f s else s

/-- The units whose counter write is requested and not complete (R150). -/
def State.writesInFlight (s : State) : List UnitIx :=
  (List.finRange 96).filter fun u => (s.unit u).registered && (s.unit u).inFlight.isSome

/-- The requested counter writes are completed in turn, and what a completed write is followed by is `done` (R150,
R179). DESIGN CHOICE (log 74, unsafe): in unit index order; R150 lets either of two complete first. -/
def State.completeWrites (s : State) (done : State → UnitIx → State) : State :=
  s.writesInFlight.foldl (fun s u => (s.haltStage fun s => s.writeCounter u).haltStage fun s => done s u) s

/-- Every record, channel status block and status field is written (R41, R74, R106, R132, R150, R171, R179). A worker
record's part fields include its open permit (Table 11-10, R179). DESIGN CHOICE (log 74, unsafe): unit, worker, permit and
order records, each table in index order, then the status blocks and the status fields; R179 names them and gives no order. -/
def State.writeAllRecords (s : State) : State :=
  let s := forAll (fun u s => if (s.unit u).registered then (s.writeUnit u).writeCounter u else s) s
  let s := forAll (fun w s => (s.writeWorker w).writeOpenPermit w) s
  let s := forAll (fun p s => s.writePermit p) s
  let s := forAll (fun o s => s.writeOrder o) s
  s.writeChannelStatuses.writeStatus

/-- The Exchange Interface at the drop of HALT: pending classes and mask keep their values (R179), and the rejected flag is
clear (log 57). -/
def Xif.afterHalt (x : Xif) : Xif :=
  { Xif.reset with
    xbase := x.xbase, fault := x.fault, pending := x.pending, mask := x.mask, noteData := x.noteData
    busPlan := x.busPlan }

/-- Every block's state is dropped and the mode becomes HALTED (R179). -/
def State.dropHalted (s : State) : State :=
  let s := s.dropBlocks
  { s with xif := s.xif.afterHalt }

/-- HALT may complete: no page is in progress, and no port is TRANSMITTING (R43, R179). -/
def State.mayComplete (s : State) : Bool :=
  s.xif.mode == .halting && s.xif.consuming.isNone
    && (List.finRange 4).all fun c => (s.port c).state != .transmitting

/-- The stages of HALT after the counter writes, down to the drop: the records, the notice HALTED and the page header
(R179). -/
def State.closeHalt (s : State) : State :=
  let s := (s.haltStage State.writeAllRecords).haltStage fun s => s.raise .halted
  s.haltStage State.writeNoticeHeader

/-- HALT completes (R179). The drop comes before the frames of the completed counter writes are taken. A bus fault ends
HALT with no drop; then each such frame is taken as its write completes, in HALTING, and none in FAULTED (R130, R142,
R150, R186, log 36). -/
def State.completeHalt (s : State) : State :=
  if s.mayComplete then
    let t := (s.completeWrites fun s _ => s).closeHalt
    if t.xif.mode = .halting then t.dropHalted
    else
      let t := (s.completeWrites State.handBack).closeHalt
      if t.xif.mode = .halting then t.dropHalted else t.settle
  else s

/-! ## Registers (R174, R181, R183, R185) -/

/-- A write to XBASE is taken in HALTED; its low 12 bits are ignored (R174). -/
def State.writeXbase (s : State) (v : BitVec 32) : State :=
  if s.xif.mode = .halted then { s with xif := { s.xif with xbase := v.extractLsb' 12 20 } } else s

/-- The page a write to POST names (Table 11-12). -/
def postPage (v : BitVec 32) : Page := if v.getLsbD 8 then .b else .a

/-- The count of entries a write to POST gives (Table 11-12). -/
def postCount (v : BitVec 32) : Nat := v.toNat % 128

/-- A handover is accepted in RUNNING, for a page that is HOST, with a count from 1 to 64 (R181). -/
def Xif.acceptsPage (x : Xif) (p : Page) (count : Nat) : Bool :=
  x.mode == .running && x.page p == .host && decide (1 ≤ count ∧ count ≤ 64)

/-- An accepted page is PART, and is consumed at once or waits behind the page in progress (R181). -/
def Xif.queuePage (x : Xif) (p : Page) (count : Nat) : Xif :=
  let x := { x.setPage p .part with rejected := false }
  match x.consuming with
  | none => { x with consuming := some { page := p, count := count, next := 0, notDone := 0 } }
  | some _ => { x with waiting := some (p, count) }

/-- A handover (R181). -/
def Xif.handover (x : Xif) (v : BitVec 32) : Xif :=
  if x.acceptsPage (postPage v) (postCount v) then x.queuePage (postPage v) (postCount v)
  else { x with rejected := true }

/-- The other notice page becomes FILLING, with no notices and overflow counts 0 (R183). -/
def Xif.turnPage (x : Xif) : Xif :=
  { x with filling := x.filling.other, otherTaken := true, notices := 0, overflow := Vector.replicate 8 0 }

/-- TAKE, in the modes that take it (R183, Table 10-3). -/
def State.takePage (s : State) : State :=
  if s.xif.mode.busOn then
    let s := s.writeNoticeHeader
    if s.xif.mode.busOn then s.setXif s.xif.turnPage else s
  else s

/-- A read of NOTE (R185). -/
def Xif.readNote (x : Xif) : Xif := { x with noteData := x.noteWord, pending := clearHighest x.pending }

/-! ## Periodic status and bus timeouts (R175, R186) -/

/-- Seconds between periodic status writes (R175). -/
def periodicSeconds : Nat := 60

/-- The periodic status falls due: channel status blocks, unit records and status fields are written (R41, R74, R106,
R132, R171, R175, log 32), in this order (log 74). -/
def State.periodic (s : State) : State :=
  if s.xif.clockOn then
    let s := s.advanceTo (s.xif.nextPeriodic * usPerSecond)
    let s := { s with xif := { s.xif with
      nextPeriodic := (s.second / periodicSeconds + 1) * periodicSeconds } }
    s.writeChannelStatuses.writeRegisteredUnits.writeStatus
  else s

/-- A bus access is not completed in time (R186, log 7). The access outstanding now is made again at once: bus retries
rises when that completes, and the part is FAULTED when it does not. An access to come is noted. -/
def State.busTimeout (s : State) (access : BusAccess) (again : Bool) : State :=
  match access with
  | .ahead skip => { s with xif := { s.xif with busPlan := s.xif.busPlan ++ [(skip, again)] } }
  | .now r w =>
    if s.xif.mode.busOn then
      if again then s.enterFaulted (.busTimeout r w)
      else { s with xif := { s.xif with busRetries := satInc s.xif.busRetries } }
    else s

/-! ## The commands -/

/-- POWER_ON (R180). -/
def execPowerOn (c0 c1 c2 c3 : Bool) (s : State) : Host.Outcome State Fault Refusal :=
  .next (s.powerOn #v[c0, c1, c2, c3])

/-- START (R176). -/
def execStart (stores : List Host.Cell) (s : State) : Host.Outcome State Fault Refusal :=
  .next (s.setMem (s.mem.stores stores)).startCommand

/-- HALT (R176). -/
def execHalt (s : State) : Host.Outcome State Fault Refusal := .next s.haltCommand

/-- RESET (R180). -/
def execReset (s : State) : Host.Outcome State Fault Refusal := .next s.resetPart

/-- REGISTER_WRITE_IGNORED: a write to XCTL or NOTE that carries no command changes nothing (R176, Table 11-12); one that
does carry a command is not this event, and its stores are made all the same (log 3). -/
def execRegisterWriteIgnored (_register : ControlRegister) (_value : BitVec 32) (stores : List Host.Cell)
    (s : State) : Host.Outcome State Fault Refusal :=
  .next (s.setMem (s.mem.stores stores))

/-- XBASE_WRITE (R174). -/
def execXbaseWrite (value : BitVec 32) (s : State) : Host.Outcome State Fault Refusal := .next (s.writeXbase value)

/-- POST_HANDOVER (R181). -/
def execPostHandover (value : BitVec 32) (stores : List Host.Cell) (s : State) : Host.Outcome State Fault Refusal :=
  .next ((s.setMem (s.mem.stores stores)).setXif (s.xif.handover value))

/-- TAKE (R183). -/
def execTake (s : State) : Host.Outcome State Fault Refusal := .next s.takePage

/-- NOTE_READ (R185). -/
def execNoteRead (s : State) : Host.Outcome State Fault Refusal := .next (s.setXif s.xif.readNote)

/-- PERIODIC_STATUS_WRITE (R175). -/
def execPeriodicStatusWrite (s : State) : Host.Outcome State Fault Refusal := .next s.periodic

/-- BUS_ACCESS_TIMEOUT (R186). -/
def execBusAccessTimeout (access : BusAccess) (again : Bool) (s : State) : Host.Outcome State Fault Refusal :=
  .next (s.busTimeout access again)

/-- HALT_COMPLETE (R179). -/
def execHaltComplete (s : State) : Host.Outcome State Fault Refusal := .next s.completeHalt

end Sys2Proof.Machine
end

