-- ==== Sys2Proof/Machine/Dispatch.lean ====
section
/-! DEFINITION. The dispatch: each command's meaning. -/

namespace Sys2Proof.Machine

def exec (i : Instr) (s : State) : Host.Outcome State Fault Refusal :=
  match i with
  | .powerOn c0 c1 c2 c3 => Sys2Proof.Machine.execPowerOn c0 c1 c2 c3 s
  | .start stores => Sys2Proof.Machine.execStart stores s
  | .halt => Sys2Proof.Machine.execHalt s
  | .reset => Sys2Proof.Machine.execReset s
  | .registerWriteIgnored register value stores => Sys2Proof.Machine.execRegisterWriteIgnored register value stores s
  | .xbaseWrite value => Sys2Proof.Machine.execXbaseWrite value s
  | .postHandover value stores => Sys2Proof.Machine.execPostHandover value stores s
  | .take => Sys2Proof.Machine.execTake s
  | .noteRead => Sys2Proof.Machine.execNoteRead s
  | .unitRegister => Sys2Proof.Machine.execUnitRegister s
  | .unitRelease => Sys2Proof.Machine.execUnitRelease s
  | .unitResync => Sys2Proof.Machine.execUnitResync s
  | .unitRekey => Sys2Proof.Machine.execUnitRekey s
  | .workerOn => Sys2Proof.Machine.execWorkerOn s
  | .workerOff => Sys2Proof.Machine.execWorkerOff s
  | .alarmAck => Sys2Proof.Machine.execAlarmAck s
  | .alarmClear => Sys2Proof.Machine.execAlarmClear s
  | .orderPost => Sys2Proof.Machine.execOrderPost s
  | .orderWithdraw => Sys2Proof.Machine.execOrderWithdraw s
  | .bulletin => Sys2Proof.Machine.execBulletin s
  | .permitIssue => Sys2Proof.Machine.execPermitIssue s
  | .permitCancel => Sys2Proof.Machine.execPermitCancel s
  | .permitSurrenderLocal => Sys2Proof.Machine.execPermitSurrenderLocal s
  | .permitAcceptSurrender => Sys2Proof.Machine.execPermitAcceptSurrender s
  | .permitRefuseSurrender => Sys2Proof.Machine.execPermitRefuseSurrender s
  | .channelSet => Sys2Proof.Machine.execChannelSet s
  | .channelEnable => Sys2Proof.Machine.execChannelEnable s
  | .channelDisable => Sys2Proof.Machine.execChannelDisable s
  | .channelReset => Sys2Proof.Machine.execChannelReset s
  | .badVerb => Sys2Proof.Machine.execBadVerb s
  | .carrierUp c => Sys2Proof.Machine.execCarrierUp c s
  | .carrierDown c => Sys2Proof.Machine.execCarrierDown c s
  | .frameReceived c frame => Sys2Proof.Machine.execFrameReceived c frame s
  | .receiveChecks c => Sys2Proof.Machine.execReceiveChecks c s
  | .txDone c => Sys2Proof.Machine.execTxDone c s
  | .modemAlert c => Sys2Proof.Machine.execModemAlert c s
  | .creditSlotExpiry c => Sys2Proof.Machine.execCreditSlotExpiry c s
  | .txDoneWatchdogExpiry c => Sys2Proof.Machine.execTxDoneWatchdogExpiry c s
  | .carrierStuckExpiry c => Sys2Proof.Machine.execCarrierStuckExpiry c s
  | .frameStart c => Sys2Proof.Machine.execFrameStart c s
  | .uplinkFrame c => Sys2Proof.Machine.execUplinkFrame c s
  | .counterWriteBackComplete u => Sys2Proof.Machine.execCounterWriteBackComplete u s
  | .retransmissionTimerExpiry u => Sys2Proof.Machine.execRetransmissionTimerExpiry u s
  | .resyncReplyWaitExpiry u => Sys2Proof.Machine.execResyncReplyWaitExpiry u s
  | .searchTimerProbeExpiry u => Sys2Proof.Machine.execSearchTimerProbeExpiry u s
  | .searchIntervalExpiry u => Sys2Proof.Machine.execSearchIntervalExpiry u s
  | .promptTime w => Sys2Proof.Machine.execPromptTime w s
  | .deadline w => Sys2Proof.Machine.execDeadline w s
  | .graceExpiry w => Sys2Proof.Machine.execGraceExpiry w s
  | .escalationExpiry w => Sys2Proof.Machine.execEscalationExpiry w s
  | .orderExpiry o => Sys2Proof.Machine.execOrderExpiry o s
  | .periodicStatusWrite => Sys2Proof.Machine.execPeriodicStatusWrite s
  | .busAccessTimeout access again => Sys2Proof.Machine.execBusAccessTimeout access again s
  | .haltComplete => Sys2Proof.Machine.execHaltComplete s

end Sys2Proof.Machine
end

