-- ==== Sys2Proof/Machine/Step.lean ====
section
/-! DEFINITION. One step of the part: the command at the front of the queue, or one microsecond of the service clock when
none waits (log 2). -/

namespace Sys2Proof.Machine

/-- Nothing is commanded: one microsecond passes while the service clock runs (log 2). -/
def State.idle (s : State) : State :=
  if s.xif.clockOn then { s with xif := { s.xif with clock := s.xif.clock + 1 } } else s

/-- One step: the command at the front of the queue is taken, with the queue's rest left waiting; an empty queue lets
time pass. -/
def step (s : State) : Host.Outcome State Fault Refusal :=
  match s.pending with
  | [] => .next s.idle
  | c :: rest => exec c { s with pending := rest }

/-- The state with the command a word spells at the front of its queue; unchanged where the word spells none. -/
def State.withFetchWord (s : State) (nbits w : Nat) : State :=
  match decodeTableWord nbits w with
  | some c => { s with pending := c :: s.pending }
  | none => s

end Sys2Proof.Machine
end

