-- ==== Sys2Proof/Safety.lean ====
section
/-! DEFINITION. What a safe state of the part is, and what a step leaves as it was: the laws chapters 2 to 7, 9 and
10 state of it, in the terms the statements use. -/

namespace Sys2Proof.Safety

open Sys2Proof.Machine

/-! ## Safe states -/

/-- Host memory is in its canonical form. -/
def MemoryCanonical (s : State) : Prop := s.mem.wf = true

/-- Every channel's credit lies between -C_max and +C_max, its accumulator between 0 and 99, and its duty is at most 100
(R17, R23, R24). -/
def CreditBounded (s : State) : Prop :=
  ∀ c cfg, (s.port c).settings = some cfg →
    -(cfg.cmax : Int) ≤ (s.port c).credit ∧ (s.port c).credit ≤ cfg.cmax ∧ (s.port c).acc < 100 ∧ cfg.duty ≤ 100

/-- The page being consumed and the one that waits are PART, distinct, and hold 1 to 64 entries, of which the next one
to read is one (R181). -/
def PostingSound (x : Xif) : Prop :=
  (∀ r, x.consuming = some r → x.page r.page = .part ∧ r.next < r.count ∧ r.count ≤ 64) ∧
  (∀ w, x.waiting = some w → x.page w.1 = .part ∧ 1 ≤ w.2 ∧ w.2 ≤ 64 ∧
    ∃ r, x.consuming = some r ∧ r.page ≠ w.1)

/-- The FILLING notice page holds at most its 127 entries (R183). -/
def NoticesFit (s : State) : Prop := s.xif.notices ≤ 127

/-- No permit's current energising step is with a crew while its section is held (R137, R139). -/
def InterlockKept (s : State) : Prop :=
  ∀ p st, ((s.permit p).state = .active ∨ (s.permit p).state = .restoring) →
    (s.permit p).step (s.permit p).current = some st → st.isEnergising = true → st.state = .sent →
    s.hold st.sect = 0

/-- The permits that hold a section: those in HOLDING or SURRENDER_PENDING whose list names it (R134). -/
def holdersOf (s : State) (k : Nat) : Nat :=
  (List.finRange 64).countP fun p => (s.permit p).state.holds && (s.permit p).sections.contains k

/-- Every hold count is the number of permits that hold the section (R134). -/
def HoldsExact (s : State) : Prop := ∀ k, k < 256 → s.hold k = holdersOf s k

/-! ## Tables and links -/

/-- Registered unit contexts hold distinct addresses (R46, R50). -/
def AddressesDistinct (s : State) : Prop :=
  ∀ u v, (s.unit u).registered = true → (s.unit v).registered = true → (s.unit u).address = (s.unit v).address → u = v

/-- A unit's queue holds at most 16 orders, of which at most one is SENDING (R93). -/
def OrderQueuesBounded (s : State) : Prop :=
  ∀ a : Nat,
    (List.finRange 256).countP (fun o => (s.order o).state.live && (s.order o).unit == a) ≤ 16 ∧
    (List.finRange 256).countP (fun o => (s.order o).state == .sending && (s.order o).unit == a) ≤ 1

/-- A worker on the list of an open permit is bound to that permit, so that it stands on no other open one (R110,
R114). -/
def WorkersBoundOnce (s : State) : Prop :=
  ∀ p w, (s.permit p).state.isOpen = true → w.val ∈ (s.permit p).workers → (s.worker w).openPermit = some p

/-- The outstanding lists (R47, R48): at most W_d entries, numbered from N_a up to V(S) while no resync is pending, none
for a unit that is UNKNOWN, UNREACHABLE or not registered; the model's references name one entry each. -/
structure OutstandingSound (s : State) : Prop where
  window : s.ule.window ≤ 8 ∧ ∀ u, (s.unit u).out.length ≤ s.ule.window
  numbered : ∀ u, (s.unit u).resync = .no →
    (s.unit u).out.map OutEntry.seq =
      (List.range (s.unit u).out.length).map (fun i => (s.unit u).na + BitVec.ofNat 8 i) ∧
    (s.unit u).vs = (s.unit u).na + BitVec.ofNat 8 (s.unit u).out.length
  empty : ∀ u, (s.unit u).registered = false ∨ (s.unit u).reach = .unknown ∨ (s.unit u).reach = .unreachable →
    (s.unit u).out = []
  refs : ∀ u, ((s.unit u).out.map OutEntry.ref).Nodup ∧ ∀ e ∈ (s.unit u).out, e.ref < s.ule.nextRef

/-- A frame waits on a channel: it stands on the offer list, or in the transmit queue and not on air (R25, R64). -/
def Waits (s : State) (c : Chan) (e : TxEntry) : Prop :=
  (∃ it ∈ s.offer c, it.frame = e) ∨ (e ∈ (s.port c).queue ∧ e.started = false)

/-- The permit a message belongs to. -/
def permitOf : ProducerRef → Option PermitIx
  | .permitHeader p | .permitNote p _ | .permitStep p _ => some p
  | .orderSegment .. | .orderCancel .. => none

/-- The permits' messages on the link (R112, R115, R116): an outstanding message of a permit belongs to a permit that is
not FREE and stands at its crew unit, counted in flight; a PERMIT_STEP carries the step as recorded, once, and that of the
current step is of a step given; and every sequenced frame that waits is that of an outstanding entry. -/
structure PermitMessagesSound (s : State) : Prop where
  crewed : ∀ u, ∀ e ∈ (s.unit u).out, ∀ p, permitOf e.producer = some p →
    (s.unit u).registered = true ∧ (s.permit p).crew = (s.unit u).address ∧ (s.permit p).state ≠ .free
  counted : ∀ u p, (s.unit u).out.countP (fun e => permitOf e.producer == some p) ≤ (s.permit p).inFlight
  steps : ∀ u, ∀ e ∈ (s.unit u).out,
    (e.kind = .permitStep → ∃ p k, e.producer = .permitStep p k) ∧
    (∀ p k, e.producer = .permitStep p k →
      e.kind = .permitStep ∧ 1 ≤ k ∧ k ≤ (s.permit p).current ∧
      (∃ st, (s.permit p).step k = some st ∧ e.payload = st.payload p k) ∧
      (k = (s.permit p).current → (s.permit p).stepState k = .sent ∨ (s.permit p).stepState k = .done))
  once : ∀ u p k, (s.unit u).out.countP (fun e => e.producer == .permitStep p k) ≤ 1
  carried : ∀ c e, Waits s c e → e.kind.sequenced = true → ∃ u, e.unit = some u ∧
    ∃ out ∈ (s.unit u).out, out.ref = e.ref ∧ out.kind = e.kind ∧ out.payload = e.payload
  /-- No step is current before ISSUED has passed, and none beyond the h-th while the permit holds its sections. -/
  early : ∀ p, (s.permit p).state = .posted ∨ (s.permit p).state = .issued → (s.permit p).current = 0
  held : ∀ p, (s.permit p).state.holds = true → (s.permit p).current ≤ (s.permit p).h
  /-- The current step of a permit that is worked is not yet DONE (R120). -/
  working : ∀ p, (s.permit p).state = .active ∨ (s.permit p).state = .restoring →
    (s.permit p).stepState (s.permit p).current ≠ .done
  /-- A FREE permit has nothing to give, and no confirmation of it is on its way. -/
  idle : ∀ p, (s.permit p).state = .free → (s.permit p).headerDue = false ∧ (s.permit p).notes = [] ∧
    ∀ st ∈ (s.permit p).steps, st.state = .pending ∨ st.state = .done
  flight : ∀ u f, (s.unit u).inFlight = some f → f.kind.isCrew = true → f.stray = false →
    ∃ p, indexIn 64 f.permit = some p ∧ (s.permit p).state ≠ .free

/-- The step a permit is at, when it is an energising one on a section that is held (R137). -/
def HeldStep (s : State) (p : PermitIx) : Prop :=
  ((s.permit p).state = .active ∨ (s.permit p).state = .restoring) ∧
  ∃ st, (s.permit p).step (s.permit p).current = some st ∧ st.isEnergising = true ∧ 0 < s.hold st.sect

/-- R137's law on frames, of the step each permit is at: while its section is held no outstanding entry carries it, and
every PERMIT_STEP frame that waits on an offer list or in a transmit queue belongs to an entry of another step. The frame
of a step that is DONE, or of a permit that is over, may wait there (R141), and does not start (log 50). -/
structure NoHeldStepOnLink (s : State) : Prop where
  entry : ∀ u p, ∀ out ∈ (s.unit u).out, HeldStep s p → out.producer ≠ .permitStep p (s.permit p).current
  frame : ∀ c e, Waits s c e → e.kind = .permitStep → ∃ u, e.unit = some u ∧
    ∃ out ∈ (s.unit u).out, out.ref = e.ref ∧ out.payload = e.payload ∧
      ∃ p k, out.producer = .permitStep p k ∧ (k = (s.permit p).current → ¬ HeldStep s p)

/-! ## The bytes the part writes (R188, Tables 11-4, 11-6, 11-8 to 11-11) -/

/-- Offsets within a region that the part writes: status blocks, counters and clamp log of the configuration record,
outcome bytes, notice pages, and the part fields of the records with the unit's counter field. -/
def partOffset : Region → Nat → Bool
  | .config, o =>
    (decide (0x050 ≤ o ∧ o < 0x0D0) && decide ((o - 0x050) % 32 < 0x15)) || decide (0x0D0 ≤ o ∧ o < 0x0E2)
      || (decide (0x0E4 ≤ o ∧ o < 0x1E4) && decide ((o - 0x0E4) % 8 ≠ 3))
  | .postingA, o | .postingB, o => decide (o < 0x400 ∧ o % 16 = 1)
  | .noticeA, o | .noticeB, o => decide (o < 0x800)
  | .units, o => decide (o < 96 * 64 ∧ 0x0A ≤ o % 64 ∧ o % 64 ≠ 0x0E)
  | .workers, o => decide (o < 192 * 32 ∧ 0x06 ≤ o % 32)
  | .permits, o => decide (o < 64 * 256 ∧ 0xA0 ≤ o % 256 ∧ o % 256 < 0xB5)
  | .orders, o => decide (o < 256 * 512 ∧ 0x00A ≤ o % 512 ∧ o % 512 < 0x01C)

/-- An address holds a byte that the part writes, in one of some regions of the exchange area at a value of XBASE. -/
def PartByte (rs : List Region) (xbase : Nat) (a : Nat) : Prop :=
  ∃ r ∈ rs, ∃ o, partOffset r o = true ∧ a = xbase * 4096 + regionOffset r + o

/-- The nine regions (Table 10-1). -/
def allRegions : List Region :=
  [.config, .postingA, .postingB, .noticeA, .noticeB, .units, .workers, .permits, .orders]

/-- The regions the link engine's own activity writes: notices, unit records, and the records of the producers it
confirms messages to. -/
def linkRegions : List Region := [.noticeA, .noticeB, .units, .permits, .orders]

/-- The server's stores a command carries (log 3). -/
def storesOf : Instr → List Host.Cell
  | .start stores => stores
  | .registerWriteIgnored _ _ stores => stores
  | .postHandover _ stores => stores
  | _ => []

/-! ## What writing to the exchange area changes -/

/-- What stays of the Exchange Interface while notices are raised and records written: all but the FILLING page's counts,
the pending classes, and what a bus timeout or a fault changes. Where no timeout is announced nothing of the last kind
changes (R184, R186). -/
structure XifKept (x y : Xif) : Prop where
  rest : y = { x with
    notices := y.notices, overflow := y.overflow, pending := y.pending, busRetries := y.busRetries,
    busPlan := y.busPlan, mode := y.mode, fault := y.fault, clockOn := y.clockOn }
  plain : x.busPlan = [] →
    y.busPlan = [] ∧ y.mode = x.mode ∧ y.fault = x.fault ∧ y.clockOn = x.clockOn ∧ y.busRetries = x.busRetries
  mode : y.mode = x.mode ∨ y.mode = .faulted
  pendingKept : x.pending &&& y.pending = x.pending
  noticesKept : x.notices ≤ y.notices ∧ (x.notices ≤ 127 → y.notices ≤ 127)

/-- Host memory outside the part's bytes of some regions reads as before, the notices already on the FILLING page read
as they were raised, and memory stays canonical. -/
structure MemKept (rs : List Region) (s t : State) : Prop where
  bytes : ∀ a, ¬ PartByte rs s.xif.xbase.toNat a → t.mem.read a = s.mem.read a
  raised : ∀ i, 16 ≤ i → i < 16 * (s.xif.notices + 1) → i < 0x800 →
    t.mem.read (s.areaAddr s.xif.filling.noticeRegion i) = s.mem.read (s.areaAddr s.xif.filling.noticeRegion i)
  canonical : MemoryCanonical s → MemoryCanonical t

/-- `t` is `s` but for bytes the part writes in some regions, and notices and bus accounting of the interface. -/
structure Wrote (rs : List Region) (s t : State) : Prop where
  rest : t = { s with mem := t.mem, xif := t.xif }
  xif : XifKept s.xif t.xif
  mem : MemKept rs s t

/-- A notice has been raised between two states, and stands as the next entry of the FILLING page with the service time
of the first, its class pending. It is said of a part that makes exchange-area accesses, has room on the page and has no
bus timeout ahead (R184, R186). -/
def NoticeAt (s t : State) (nt : Notice) : Prop :=
  s.xif.mode.busOn = true → s.xif.busPlan = [] → MemoryCanonical s → s.xif.notices < 127 →
    s.xif.notices < t.xif.notices
    ∧ t.fieldBytes s.xif.filling.noticeRegion (16 * (s.xif.notices + 1)) 16 = nt.bytes s.second
    ∧ t.xif.pending.getLsbD nt.cls.ix.val = true

/-! ## What the link engine's own activity leaves as it was -/

/-- What pulls, searches, resync starts and offers leave of a unit context: its identity, its codes, its uplink side, its
report marks and the workers due a PROMPT or an ALARM_NOTE. -/
structure SameUnit (x y : UnitCtx) : Prop where
  registered : y.registered = x.registered
  address : y.address = x.address
  key : y.key = x.key
  counter : y.counter = x.counter
  failures : y.failures = x.failures
  codeLock : y.codeLock = x.codeLock
  current : y.current = x.current
  hint : y.hint = x.hint
  lastHeard : y.lastHeard = x.lastHeard
  vr : y.vr = x.vr
  lockout : y.lockout = x.lockout
  resend : y.resend = x.resend
  awaiting : y.awaiting = x.awaiting
  inFlight : y.inFlight = x.inFlight
  codeQueue : y.codeQueue = x.codeQueue
  busy : y.busy = x.busy
  birth : y.birth = x.birth
  report : y.due.report = x.due.report
  prompt : y.due.prompt = x.due.prompt
  alarm : y.due.alarm = x.due.alarm

/-- A step but for its state. -/
def asRecorded (st : Step) : Step := { st with state := .pending }

/-- What they leave of a permit: all but its messages, their in-flight count and the states of its steps. -/
structure SamePermit (x y : PermitCtx) : Prop where
  state : y.state = x.state
  crew : y.crew = x.crew
  workers : y.workers = x.workers
  sections : y.sections = x.sections
  n : y.n = x.n
  h : y.h = x.h
  current : y.current = x.current
  source : y.source = x.source
  lastRefusal : y.lastRefusal = x.lastRefusal
  steps : y.steps.map asRecorded = x.steps.map asRecorded

/-- What they leave of everything but the orders. -/
structure LinkKept (s t : State) : Prop where
  pending : t.pending = s.pending
  workers : t.workers = s.workers
  holds : t.holds = s.holds
  lws : t.lws = s.lws
  pen : t.pen = s.pen
  freeDraw : t.freeDraw = s.freeDraw
  odp : t.odp = { s.odp with strayBulletins := t.odp.strayBulletins }
  ule : t.ule = { s.ule with nextRef := t.ule.nextRef, moment := t.ule.moment }
  port : ∀ c, t.port c = { s.port c with queue := (t.port c).queue }
  /-- A port that is not enabled takes no frame (R25). -/
  queue : ∀ c, (s.port c).enabled = false → (t.port c).queue.Sublist (s.port c).queue
  permit : ∀ p, SamePermit (s.permit p) (t.permit p)
  unit : ∀ u, SameUnit (s.unit u) (t.unit u)
  xif : XifKept s.xif t.xif
  mem : MemKept linkRegions s t

/-- `t` is `s` but for the link engine's own activity: searches, resyncs, pulls, frames placed, offered or handed back,
what the producers of its messages note of them, notices, and the records it writes. Supervision, holds, every port but
its queue, every order but its next segment and cancel state, and every other register stay as they were. -/
structure Undisturbed (s t : State) : Prop extends LinkKept s t where
  order : ∀ o, t.order o = { s.order o with nextSeg := (t.order o).nextSeg, cancel := (t.order o).cancel }

/-- `t` is `s` but for that activity and for orders that move between their states: what an order is, its text and its
replies stay as they were. -/
structure OrdersMoved (s t : State) : Prop extends LinkKept s t where
  order : ∀ o, t.order o = { s.order o with
    state := (t.order o).state, deadline := (t.order o).deadline, segSize := (t.order o).segSize,
    segCount := (t.order o).segCount, nextSeg := (t.order o).nextSeg, acked := (t.order o).acked,
    cancelling := (t.order o).cancelling, cancel := (t.order o).cancel, failure := (t.order o).failure }

/-! ## Verbs -/

/-- The part has reached a posting entry with a verb code, in a mode that takes verbs, and host memory answers its
accesses (R182, R186). -/
def Posted (s : State) (code : Nat) (r : PageRun) (e : PostingEntry) : Prop :=
  s.frontEntry = some (r, e) ∧ e.verb = code ∧ s.xif.busPlan = []

/-- A verb answers an outcome. `t` is the state its block leaves, of which something is said; the step ends with the link
engine's own activity and the writing of the outcome. -/
def VerbAnswers (c : Instr) (s : State) (r : PageRun) (o : VerbOutcome) (said : State → Prop) : Prop :=
  ∃ t, said t ∧ exec c s = .next (t.settle.finishEntry r o)

/-- A verb is refused: its block leaves everything as it was. -/
def VerbRefused (c : Instr) (s : State) (r : PageRun) (o : VerbOutcome) : Prop :=
  exec c s = .next (s.settle.finishEntry r o)

/-- The twenty verbs with their codes and the sizes of the tables their indices lie in (Tables 10-1 and 11-5). -/
def verbTable : List (Instr × Nat × Nat) :=
  [(.unitRegister, 1, 96), (.unitRelease, 2, 96), (.unitResync, 3, 96), (.unitRekey, 4, 96),
   (.workerOn, 5, 192), (.workerOff, 6, 192), (.alarmAck, 7, 192), (.alarmClear, 8, 192),
   (.orderPost, 9, 256), (.orderWithdraw, 10, 256), (.bulletin, 11, 256),
   (.permitIssue, 12, 64), (.permitCancel, 13, 64), (.permitSurrenderLocal, 14, 64),
   (.permitAcceptSurrender, 15, 64), (.permitRefuseSurrender, 16, 64),
   (.channelSet, 17, 4), (.channelEnable, 18, 4), (.channelDisable, 19, 4), (.channelReset, 20, 4)]

/-! ## Permit verbs -/

/-- Some worker of a list of numbers is unaccounted for (R122). -/
def SomeoneUnaccounted (s : State) (ws : List Nat) : Prop :=
  ∃ n ∈ ws, ∃ w, indexIn 192 n = some w ∧ (s.worker w).state.unaccounted = true

/-- A note joins a permit's queue when it holds fewer than four; a fifth is lost (R112, R117). -/
def NoteQueuedOf (before after : PermitCtx) (why : NoteCode) (step subject : Nat) : Prop :=
  if before.notes.length < 4 then
    ∃ id, after.notes = before.notes ++ [{ id := id, code := why, step := step, subject := subject, given := false }]
  else after.notes = before.notes

/-- A note that names no step. -/
def NoteQueued (before after : PermitCtx) (why : NoteCode) (subject : Nat) : Prop :=
  NoteQueuedOf before after why 0 subject

/-- The Permit Engine's counters once a note has been queued or lost (R132). -/
def penAfterNote (s : State) (x : PermitCtx) : Pen :=
  if x.notes.length < 4 then s.pen else { s.pen with notesLost := satInc s.pen.notesLost }

/-- What becomes of the orders of a permit that has gone: QUEUED and HELD ones are FAILED with PERMIT_GONE, and a SENDING
one not yet cancelling enters the withdraw path (R103). -/
def OrdersGone (s v : State) (p : PermitIx) : Prop :=
  ∀ o, (s.order o).permit = some p.val →
    ((s.order o).state = .queued ∨ (s.order o).state = .held →
      (v.order o).state = .failed ∧ (v.order o).failure = .permitGone) ∧
    ((s.order o).state = .sending → (s.order o).cancelling = none →
      (v.order o).state = .sending ∧ (v.order o).cancelling = some .failed ∧ (v.order o).cancel = .due)


/-- A permit record is malformed (R113, test 2). -/
def PermitMalformed (h : PermitHost) : Prop :=
  h.n = 0 ∨ 16 < h.n ∨ h.h = 0 ∨ h.n < h.h ∨ h.sectionCount = 0 ∨ 8 < h.sectionCount ∨ 8 < h.workerCount
    ∨ ¬ h.sections.Nodup ∨ (∃ w ∈ h.workers, 191 < w) ∨ ¬ h.workers.Nodup
    ∨ (∃ st ∈ h.steps.take h.n, st.action = 0 ∨ 7 < st.action.toNat ∨ 1 < st.energising.toNat)
    ∨ (∃ st ∈ h.steps.take h.h, st.energising ≠ 0)

/-! ## Workers -/

/-- A worker has entered OVERDUE: its timer at E minutes, its bound unit as note unit, with the notice and the record
(R162). -/
def enteredOverdue (w : WorkerIx) (s : State) : State :=
  let x := s.worker w
  ((s.setWorker w { x with
    state := .overdue, origin := .overdue, dutyBefore := true, noteUnit := x.bound,
    timer := some (s.second + x.escalation * 60), escCount := 0 }).raise
      (.overdue w x.bound x.deadline x.state x.openPermit)).writeWorker w

/-- A worker has checked in, by its state (R163, Table 9-4): last check-in is the current second, and, but for one OFF or in
an emergency, the worker is ON_DUTY with a new interval and its record written. One PROMPTED is withdrawn from its bound
unit's PROMPT request; one SILENT, OVERDUE, ESCALATED or ACKNOWLEDGED has its alarm origin cleared and CLEARED raised with
the state left (log 52 for one ACKNOWLEDGED with origin none). -/
def CheckedIn (s t : State) (w : WorkerIx) : Prop :=
  let x := s.worker w
  let deadline := s.second + x.interval * 60
  let seen : WorkerCtx := { x with lastCheckin := some s.second }
  let fresh : WorkerCtx := { seen with
    state := .onDuty, deadline := some deadline, timer := some (deadline - x.lead * 60) }
  let withdrawn : State := match s.unitNamed x.bound with
    | some b => s.modDue b fun d => { d with prompt := d.prompt.filter fun i => i != w }
    | none => s
  let emergency : Prop := x.state = .emergency ∨ (x.state = .acknowledged ∧ x.origin = .emergency)
  (x.state = .off ∨ emergency → t = s.setWorker w seen) ∧
  (x.state = .onDuty → t = (s.setWorker w fresh).writeWorker w) ∧
  (x.state = .prompted → t = (withdrawn.setWorker w fresh).writeWorker w) ∧
  (x.state ∈ [.silent, .overdue, .escalated, .acknowledged] → ¬ emergency →
    t = ((s.setWorker w { fresh with origin := .none }).raise (.cleared w x.state)).writeWorker w)

/-! ## Settings -/

/-- The log entry of a setting whose value was replaced; none when the value found stands (00_scope, section 4). -/
def replaced (src : ClampSource) (setting found used : Nat) : List ClampEntry :=
  if used = found then [] else [{ source := src, setting := setting, found := found, used := used }]

/-! ## Channels in and out of service (R68, R88) -/

/-- What a channel that leaves service loses: the frames handed back and those of its offer list are UNPLACED or not
placed there any more, and each unit that was on it or probed on it is elsewhere, while every other unit stays. -/
structure ChannelLost (s v : State) (c : Chan) (handed : List TxEntry) : Prop where
  offers : v.offer c = []
  entries : ∀ e ∈ handed ++ (s.offer c).map OfferItem.frame, ∀ u, e.unit = some u → e.kind.due = none →
    ∀ out ∈ (v.unit u).out, out.ref = e.ref → out.placement = .unplaced ∧ out.repeatMark = false
  due : ∀ e ∈ handed ++ (s.offer c).map OfferItem.frame, ∀ u k, e.unit = some u → e.kind.due = some k →
    ((s.unit u).due.placedAt k).map Placed.ref = some e.ref →
    ∀ pl, (v.unit u).due.placedAt k = some pl → pl.chan ≠ c
  reached : ∀ u, (s.unit u).registered = true → (s.unit u).reach = .reachable → (s.unit u).current = some c →
    (v.unit u).reach = .searching ∨ (v.unit u).reach = .unreachable
  probed : ∀ u, (s.unit u).registered = true → (s.unit u).reach = .searching → (s.unit u).probe = some c →
    (v.unit u).probe ≠ some c
  others : ∀ u, ((s.unit u).registered = true →
      ¬ ((s.unit u).reach = .reachable ∧ (s.unit u).current = some c) ∧
      ¬ ((s.unit u).reach = .searching ∧ (s.unit u).probe = some c)) →
    (v.unit u).reach = (s.unit u).reach ∧ (v.unit u).probe = (s.unit u).probe

/-- What the searches make of a channel that has entered service: an UNREACHABLE unit is searched for AGAIN, an UNKNOWN
one when something is due to it (log 19), and the others stay. -/
structure ChannelGained (s v : State) : Prop where
  unreachable : ∀ u, (s.unit u).registered = true → (s.unit u).reach = .unreachable →
    (v.unit u).reach = .searching ∧ (v.unit u).origin = .again ∧ (v.unit u).probe ≠ none
  unknown : ∀ u, (s.unit u).registered = true → (s.unit u).reach = .unknown →
    (v.unit u).reach = if s.somethingDue u then .searching else .unknown
  others : ∀ u, (s.unit u).reach = .reachable ∨ (s.unit u).reach = .searching →
    (v.unit u).reach = (s.unit u).reach ∧ (v.unit u).probe = (s.unit u).probe

/-! ## Frames taken -/

/-- A resync has just started (R70). -/
structure ResyncBegun (x : UnitCtx) : Prop where
  running : x.resync = .running
  attempts : x.resyncAttempts = 0
  timer : x.timer = .stopped
  due : x.due.resync = true
  entries : ∀ out ∈ x.out, out.placement ≠ .waiting ∧ out.placement ≠ .queued ∧ out.repeatMark = false

/-- The outstanding messages, their sequence numbers and retry counts, N_a and V(S) stand as they were. -/
structure SameNumbers (x y : UnitCtx) : Prop where
  out : y.out.map (fun e => (e.ref, e.seq, e.retries, e.producer, e.payload)) =
    x.out.map (fun e => (e.ref, e.seq, e.retries, e.producer, e.payload))
  na : y.na = x.na
  vs : y.vs = x.vs

/-- Every entry that was SENT is to be sent again, and so is one on air (R48, R57, R67). -/
def GoneBack (x : UnitCtx) : Prop :=
  ∀ out ∈ x.out, out.placement ≠ .sent ∧ (out.placement = .onAir → out.repeatMark = true)

/-- Every entry waits on the link, or is on air and to be sent again (R72, R80). -/
def AllRequeued (x : UnitCtx) : Prop :=
  ∀ out ∈ x.out, out.placement = .waiting ∨ (out.placement = .onAir ∧ out.repeatMark = true)

/-- Every request present is placed on a channel, and none is placed elsewhere (R80, R81). -/
def DuePlacedOn (d : DueSet) (c : Chan) : Prop :=
  ∀ k, (d.has k = true → d.placedAt k ≠ none) ∧ ∀ pl, d.placedAt k = some pl → pl.chan = c

/-- Entries of a unit up to next-expected `n` are acknowledged: they leave the list with the frames that wait for them,
their producers are told oldest first, N_a is `n`, and an empty list stops the timer (R56). -/
def Acknowledged (s v : State) (u : UnitIx) (n : BitVec 8) : Prop :=
  let x := s.unit u
  let es := x.out.filter fun e => decide ((e.seq - x.na).toNat < (n - x.na).toNat)
  ∃ w, Undisturbed s w ∧
    w.unit u = { x with out := x.out.filter fun e => !decide ((e.seq - x.na).toNat < (n - x.na).toNat) } ∧
    (∀ c e, Waits w c e → ∀ out ∈ es, e.ref ≠ out.ref) ∧
    v = (w.confirmAll es .acknowledged).modUnit u fun y => { y with
      na := n, timer := if y.out = [] then .stopped else y.timer, told := y.told || !es.isEmpty }

/-- The busy flag of a report is taken: set, it pauses a running timer; cleared, it resumes a paused one, and a pull is
attempted (R57, item 1). -/
def BusyTaken (s v : State) (u : UnitIx) (busy : Bool) : Prop :=
  let x := s.unit u
  (x.busy = busy → v = s) ∧
  (x.busy = false → busy = true → v = s.setUnit u { x with
    busy := true
    timer := match x.timer with
      | .running t => .paused (t - s.xif.clock)
      | other => other }) ∧
  (x.busy = true → busy = false → v = (s.setUnit u { x with
    busy := false
    timer := match x.timer with
      | .paused d => .running (s.xif.clock + d)
      | other => other }).pull u)

/-- What the report of done makes of the unit of a coded frame: V(R) past it with REPORT_ONLY due, unless a RESYNC_ACK has
dropped its awaiting record (R59, R72, log 13). -/
def doneOf (f : CodedFrame) (x : UnitCtx) : UnitCtx :=
  if f.live then { x with vr := f.ns + 1, awaiting := none, due := { x.due with report := true } } else x

/-- Every permit, with its steps and notes, and every outstanding list stand in the second state as in the first. -/
structure MessagesStand (v t : State) : Prop where
  permit : ∀ p, t.permit p = v.permit p
  out : ∀ u, (t.unit u).out = (v.unit u).out

/-- The frame whose counter write completes has been taken, with the effect of which `v` is the state, and reported
done (R118, R150, log 34). The permits and the outstanding lists of the next state, before the link engine's pulls at the
step's end, are those of `v`: it is said of a unit that has nothing outstanding while it is UNKNOWN, as OutstandingSound
has it, for the report of done may begin the search of an UNKNOWN unit. -/
def FrameTaken (s : State) (u : UnitIx) (f : CodedFrame) (v : State) : Prop :=
  ∃ t, exec (.counterWriteBackComplete u) s = .next t.settle ∧ Undisturbed (v.modUnit u (doneOf f)) t ∧
    (((s.unit u).reach = .unknown → (s.unit u).out = []) → MessagesStand v t)

/-- A crew confirmation is refused: a note to the crew, the last refusal and no other field of the permit, the notice and
the record (R118). -/
def CrewRefused (w v : State) (p : PermitIx) (kind : FrameKind) (why : NoteCode) (step : Nat)
    (alarm : Option (Nat × WorkerState)) : Prop :=
  let y := w.permit p
  NoteQueuedOf y (v.permit p) why step kind.code ∧
  v.permit p = { y with lastRefusal := some (why, step), notes := (v.permit p).notes } ∧
  ∃ v1, Undisturbed ({ w with pen := penAfterNote w y }.setPermit p { y with lastRefusal := some (why, step) }) v1 ∧
    v = (v1.raise (.refused p kind why step alarm)).writePermit p

end Sys2Proof.Safety
end

