-- ==== Sys2Proof/WellFormed.lean ====
section
/-! DEFINITION. Which commands are well formed: what the row of the table asks of an operand beyond its type. -/

namespace Sys2Proof

/-- The value written carries no command: an XCTL value whose bits 7 to 0 are none of START 1, HALT 2 and RESET 3
(R176), or a NOTE value with bit 0 clear (Table 11-12). -/
def ControlRegister.carriesNoCommand (r : ControlRegister) (v : BitVec 32) : Bool :=
  match r with
  | .xctl => !([1, 2, 3].contains (v.toNat % 256))
  | .note => !(v.getLsbD 0)

/-- A server store goes to a host address of 32 bits, the width of XBASE (Table 11-12). -/
def storesInRange (stores : List Host.Cell) : Bool :=
  stores.all fun c => c.1 < 2 ^ 32

/-- The operands the row of the table admits. -/
def Instr.wellFormed : Instr → Bool
  | .registerWriteIgnored r v stores => r.carriesNoCommand v && storesInRange stores
  | .start stores => storesInRange stores
  | .postHandover _ stores => storesInRange stores
  | .powerOn _ _ _ _ | .halt | .reset | .xbaseWrite _ | .take | .noteRead
  | .unitRegister | .unitRelease | .unitResync | .unitRekey
  | .workerOn | .workerOff | .alarmAck | .alarmClear
  | .orderPost | .orderWithdraw | .bulletin
  | .permitIssue | .permitCancel | .permitSurrenderLocal | .permitAcceptSurrender | .permitRefuseSurrender
  | .channelSet | .channelEnable | .channelDisable | .channelReset | .badVerb
  | .carrierUp _ | .carrierDown _ | .frameReceived _ _ | .receiveChecks _ | .txDone _ | .modemAlert _
  | .creditSlotExpiry _ | .txDoneWatchdogExpiry _ | .carrierStuckExpiry _ | .frameStart _ | .uplinkFrame _
  | .counterWriteBackComplete _ | .retransmissionTimerExpiry _ | .resyncReplyWaitExpiry _
  | .searchTimerProbeExpiry _ | .searchIntervalExpiry _
  | .promptTime _ | .deadline _ | .graceExpiry _ | .escalationExpiry _ | .orderExpiry _
  | .periodicStatusWrite | .busAccessTimeout _ _ | .haltComplete => true

end Sys2Proof
end

