-- ==== Sys2Proof/Certificates/Slice0/Obligations.lean ====
section
/-! DEFINITION. The statements for the provers, in the order of OBLIGATIONS.json. A statement says what a command does by
the rule it cites. Where it says VerbAnswers or names a state `v` that is then settled, `v` is the state the command's
own effect leaves; what State.settle may still change is the link engine's own activity (Safety.Undisturbed). -/

open Sys2Proof Sys2Proof.Machine Sys2Proof.Safety

/-! ## Steps and invariants -/

/-- A step takes the command at the front of the queue and runs it on the state with the queue's rest. With an empty
queue one microsecond of the service clock passes while the clock runs: the model's choice, log 2. -/
def Obligations.StepTakesFrontCommand : Prop :=
  (∀ (c : Instr) (rest : List Instr) (s : State), s.pending = c :: rest →
    step s = exec c { s with pending := rest }) ∧
  (∀ s : State, s.pending = [] →
    step s = .next (if s.xif.clockOn then { s with xif := { s.xif with clock := s.xif.clock + 1 } } else s))

/-- The canonical form of host memory, a convention of the model (log 4), is kept by every step. -/
def Obligations.StepKeepsMemoryCanonical : Prop :=
  ∀ s t : State, MemoryCanonical s → step s = .next t → MemoryCanonical t

/-- Every channel's credit stays between -C_max and +C_max and its accumulator within 0 to 99 (R23, R24). -/
def Obligations.StepKeepsCreditBounded : Prop :=
  ∀ s t : State, CreditBounded s → step s = .next t → CreditBounded t

/-- The page being consumed is PART, so the host may not fill it, and so is the page that waits; the next entry lies
within the count; the FILLING page holds at most 127 notices (R181, R182, R184). -/
def Obligations.StepKeepsInterfaceSound : Prop :=
  ∀ s t : State, PostingSound s.xif → NoticesFit s → step s = .next t → PostingSound t.xif ∧ NoticesFit t

/-- The hold count of every section equals the number of permits in HOLDING or SURRENDER_PENDING that name it, and every
step keeps it so (R134). -/
def Obligations.StepKeepsHoldsExact : Prop :=
  ∀ s t : State, HoldsExact s → step s = .next t → HoldsExact t

/-- No crew has been given an energising step on a held section, and every step keeps it so (R137, R139). -/
def Obligations.StepKeepsInterlock : Prop :=
  ∀ s t : State, InterlockKept s → step s = .next t → InterlockKept t

/-- R137's law on frames: when the links, the permits' messages and the interlock are sound, a step leaves the permits'
messages sound and no held energising step on a link: no outstanding entry carries the energising step that an ACTIVE or
RESTORING permit is at while its section is held, and no PERMIT_STEP frame of that step waits on an offer list or in a
transmit queue (R137, R139, R140). And from every state, whatever step makes a port TRANSMITTING hands its modem a frame
that is no PERMIT_STEP of an energising step on a held section, that of a step already DONE or of a cancelled permit
included (R137; that such a frame waits for the release of its section is log 50). -/
def Obligations.StepKeepsInterlockOnFrames : Prop :=
  (∀ s t : State, AddressesDistinct s → OutstandingSound s → InterlockKept s → PermitMessagesSound s →
    step s = .next t → PermitMessagesSound t ∧ NoHeldStepOnLink t) ∧
  (∀ (s t : State) (c : Chan), step s = .next t →
    (s.port c).state ≠ .transmitting → (t.port c).state = .transmitting →
    ∃ bs, (t.port c).modemCmd = .keyAndSend bs ∧
      ((Header.parse bs).kindCode = 4 → byteAt (payloadOf bs) 8 ≠ 0 → t.hold (byteAt (payloadOf bs) 7).toNat = 0))

/-- The tables of units, orders and permits and the outstanding lists, each kept by every step: registered addresses are
distinct (R46, R50); a unit's queue holds at most 16 orders, of which at most one is SENDING (R93); a worker stands on the
list of at most one open permit (R110, R114); outstanding entries are numbered from N_a and number at most W_d (R48). -/
def Obligations.StepKeepsTablesSound : Prop :=
  (∀ s t : State, AddressesDistinct s → step s = .next t → AddressesDistinct t) ∧
  (∀ s t : State, OrderQueuesBounded s → step s = .next t → OrderQueuesBounded t) ∧
  (∀ s t : State, WorkersBoundOnce s → step s = .next t → WorkersBoundOnce t) ∧
  (∀ s t : State, OutstandingSound s → step s = .next t → OutstandingSound t)

/-- The state after power-on meets the invariants. -/
def Obligations.ResetStateIsSafe : Prop :=
  MemoryCanonical State.reset ∧ CreditBounded State.reset ∧ PostingSound State.reset.xif ∧ NoticesFit State.reset ∧
    HoldsExact State.reset ∧ InterlockKept State.reset ∧ AddressesDistinct State.reset ∧
    OrderQueuesBounded State.reset ∧ WorkersBoundOnce State.reset ∧ OutstandingSound State.reset ∧
    PermitMessagesSound State.reset ∧ NoHeldStepOnLink State.reset

/-- No permit passes from HOLDING or SURRENDER_PENDING to RESTORING or CLOSED while a worker on its list is unaccounted
for, and only PERMIT_ACCEPT_SURRENDER makes one pass (R125). It is said of a part that is not HALTED, where no permit
context exists and START makes them anew. -/
def Obligations.AccountabilityBeforeRelease : Prop :=
  ∀ (c : Instr) (s t : State) (p : PermitIx), s.xif.mode ≠ .halted → exec c s = .next t →
    (s.permit p).state.holds = true → ((t.permit p).state = .restoring ∨ (t.permit p).state = .closed) →
    c = .permitAcceptSurrender ∧
      ∀ n ∈ (s.permit p).workers, ∀ w, indexIn 192 n = some w → (s.worker w).state.unaccounted = false

/-- The part writes its own fields and no others: whatever the command, every other byte of host memory reads as before,
or as the server stored it with the command (R175, R188; log 3). -/
def Obligations.HostFieldsNeverWritten : Prop :=
  ∀ (c : Instr) (s t : State), (∀ r, s.xif.consuming = some r → r.next < 64) → exec c s = .next t →
    ∀ a, ¬ PartByte allRegions s.xif.xbase.toNat a → t.mem.read a = (s.mem.stores (storesOf c)).read a

/-! ## Frames, airtime, classes and codes -/

/-- The check starts at FFFF hex and takes each byte most significant bit first, shifting left and adding 1021 hex when the
top bit and the data bit differ. It follows the header and payload of a frame the part builds, high byte first. A received
frame passes when the check over all bytes but the last two equals those two; the check over all its bytes is then, and only
then, 0000 hex (R5). -/
def Obligations.CheckIsZeroWhenItPasses : Prop :=
  check [] = 0xFFFF#16 ∧
  (∀ (bs : List Byte) (b : Byte), check (bs ++ [b]) = (List.range 8).foldl (fun (reg : BitVec 16) k =>
    if reg.msb = b.getLsbD (7 - k) then reg <<< 1 else (reg <<< 1) ^^^ 0x1021#16) (check bs)) ∧
  (∀ (h : Header) (payload : List Byte), ∃ hi lo : Byte,
    (check (h.bytes ++ payload)).toNat = 256 * hi.toNat + lo.toNat ∧
    frameBytes h payload = h.bytes ++ payload ++ [hi, lo]) ∧
  (∀ (body : List Byte) (hi lo : Byte),
    checkPasses (body ++ [hi, lo]) = true ↔ (check body).toNat = 256 * hi.toNat + lo.toNat) ∧
  (∀ bs : List Byte, 2 ≤ bs.length → (checkPasses bs = true ↔ check bs = 0#16))

/-- Every header field at every value it can have is read back from the frame built with it, and so is the payload
(Table 11-1, R1). -/
def Obligations.HeaderReadsBack : Prop :=
  ∀ (h : Header) (payload : List Byte), h.kindCode < 32 → h.address < 1024 → h.site < 4 → h.length < 256 →
    h.timeMark < 65536 → h.cls < 4 → h.attempt < 8 →
    Header.parse (frameBytes h payload) = h ∧ payloadOf (frameBytes h payload) = payload

/-- Airtime and slots by the four stages of R20, each quotient rounded up, with the bounds R20 names; and L_max is the
largest payload length that fits, every shorter one fitting and no longer one (R21). -/
def Obligations.AirtimeAndLongestPayload : Prop :=
  (∀ (cfg : ChannelSettings) (l : Nat), cfg.rate ≤ 2 → 20 ≤ cfg.preamble → cfg.preamble ≤ 250 → l ≤ 64 →
    codedBits l = 32 + 16 * (12 + l) ∧ 224 ≤ codedBits l ∧ codedBits l ≤ 1248 ∧
    cfg.preamble * 1000 ≤ cfg.airtime l ∧
    codedBits l * 1000000 ≤ (cfg.airtime l - cfg.preamble * 1000) * rateBps cfg.rate ∧
    (cfg.airtime l - cfg.preamble * 1000) * rateBps cfg.rate < codedBits l * 1000000 + rateBps cfg.rate ∧
    cfg.airtime l ≤ cfg.slots l * 5000 ∧ cfg.slots l * 5000 < cfg.airtime l + 5000 ∧
    7 ≤ cfg.slots l ∧ cfg.slots l ≤ 102) ∧
  (∀ cfg : ChannelSettings,
    (∀ m, cfg.lmax = some m → m ≤ 64 ∧ ∀ l, l ≤ 64 → (cfg.slots l * 5 ≤ cfg.tot ↔ l ≤ m)) ∧
    (cfg.lmax = none → ∀ l, l ≤ 64 → ¬ cfg.slots l * 5 ≤ cfg.tot))

/-- Table 3-4: each distance d falls into exactly the class its row names, and the lockout class holds at least one value
(R58). -/
def Obligations.SequencedFrameClasses : Prop :=
  ∀ aw bw d : Nat, 1 ≤ aw → 1 ≤ bw → aw + bw ≤ 254 → d < 256 →
    seqClass aw bw 0 false = .accepted ∧ seqClass aw bw 0 true = .duplicate ∧
    (∀ b, (1 ≤ d ∧ d ≤ aw ↔ seqClass aw bw d b = .gap)) ∧
    (∀ b, d ≠ 0 → (256 - bw ≤ d ↔ seqClass aw bw d b = .duplicate)) ∧
    (∀ b, (aw + 1 ≤ d ∧ d ≤ 255 - bw ↔ seqClass aw bw d b = .lockout)) ∧
    ∃ l, l < 256 ∧ seqClass aw bw l false = .lockout

/-- Table 8-2: the first test that holds gives the result, with what becomes of the failure count, the lock, and the
expected counter (R148, R149; that a count of 3 with the lock clear stays 3 and sets the lock is log 55). An accepted coded
frame of a unit waits at the checker behind a write in flight (R150). Else it is tested: one that passes is put in flight
with its write-back requested, and stays awaiting done; one refused raises the counter of its result (wrong code, REPLAY,
AHEAD or in lock), and CODE_LOCK with the unit record when it sets the lock, goes back to its block and is done: a crew
confirmation is refused to the crew with a note of the checker's code, and a STANDDOWN sets the note of a worker in an
emergency due again, raises STANDDOWN_REFUSED and is counted. A crew confirmation for a permit that is FREE or another
crew's is stray in either case, counted and told, with no note (R118, R166, R59). That the crew is tested once, when the
frame reaches the checker, so that a stray frame is counted and told there and goes in flight with its stray mark, is the
model's choice, log 14. It is said of a report with report-valid clear, of a REACHABLE unit on its current channel, when no
SILENT worker is bound to it. -/
def Obligations.CodeCheckerTests : Prop :=
  (∀ (x : UnitCtx) (cw : Nat) (f : CodedFrame),
    let code := check (x.key ++ [byteOf f.kind.code, byteOf f.permit, byteOf f.step, byteOf f.worker]
      ++ beBytes 4 f.counter.toNat)
    let bound := min (x.counter.toNat + cw) 4294967294
    let r := x.testCode cw f
    let y := x.applyCode f r
    (r = .inLock ↔ x.codeLock = true) ∧
    (r = .wrongCode ↔ x.codeLock = false ∧ code ≠ f.code) ∧
    (r = .replay ↔ x.codeLock = false ∧ code = f.code ∧ f.counter.toNat < x.counter.toNat) ∧
    (r = .ahead ↔ x.codeLock = false ∧ code = f.code ∧ x.counter.toNat ≤ f.counter.toNat ∧ bound < f.counter.toNat) ∧
    (r = .passed ↔ x.codeLock = false ∧ code = f.code ∧ x.counter.toNat ≤ f.counter.toNat ∧ f.counter.toNat ≤ bound) ∧
    (r = .inLock → y = x.count .inLock) ∧
    (r = .wrongCode → y.stats = (x.count .wrongCode).stats) ∧
    (r = .replay → y.stats = (x.count .replay).stats) ∧
    (r = .ahead → y.stats = (x.count .ahead).stats) ∧
    (r = .wrongCode ∨ r = .replay ∨ r = .ahead →
      y.failures = min 3 (x.failures + 1) ∧ (y.codeLock = true ↔ 3 ≤ x.failures + 1) ∧ y.counter = x.counter ∧
        y.inFlight = x.inFlight) ∧
    (r = .passed → y.failures = 0 ∧ y.counter.toNat = f.counter.toNat + 1 ∧ y.codeLock = x.codeLock ∧
      y.inFlight = some f ∧ y.stats = x.stats)) ∧
  (∀ (s : State) (c : Chan) (bs : List Byte) (rest : List RxFrame) (u : UnitIx) (kind : FrameKind),
    (s.port c).rx = { bytes := bs, passed := true } :: rest → s.xif.mode.active = true →
    let h := Header.parse bs
    let pay := payloadOf bs
    let b : Nat → Nat := fun i => (byteAt pay i).toNat
    let x := s.unit u
    s.unitOf h.address = some u → h.reportValid = false →
    (h.kindCode, kind) ∈ [(18, .standdown), (20, .readback), (21, .stepDone), (22, .surrender)] →
    (s.port c).enabled = true → x.reach = .reachable → x.current = some c →
    (∀ v, (s.worker v).state = .silent → (s.worker v).bound ≠ some x.address) →
    x.lockout = false → x.resync = .no → x.awaiting = none → h.ns = x.vr →
    let f : CodedFrame :=
      { kind := kind, permit := b 0, step := b 1, worker := b 2,
        counter := BitVec.ofNat 32 (beNat ((pay.drop 3).take 4)),
        code := BitVec.ofNat 16 (beNat ((pay.drop 7).take 2)), ns := h.ns, live := true, stray := false }
    let x2 : UnitCtx := { x with
      lastHeard := some s.second, stats := ((x.count .framesHeard).count .accepted).stats, awaiting := some h.ns,
      resend := false }
    let taken : UnitCtx → State := fun y => (s.setPort c { s.port c with rx := rest }).setUnit u y
    let own : PermitIx → Prop := fun p => (s.permit p).state ≠ .free ∧ (s.permit p).crew = x.address
    let told : PermitIx → State → State := fun p v =>
      State.raise { v with pen := { s.pen with strayConfirmations := satInc s.pen.strayConfirmations } }
        (.stray p x.address kind)
    (x.inFlight ≠ none →
      exec (.uplinkFrame c) s = .next (taken { x2 with codeQueue := x.codeQueue ++ [f] }).settle) ∧
    (x.inFlight = none → x.testCode s.pen.cw f = .passed →
      let inFlight : Bool → State := fun stray => taken { x2 with
        failures := 0, counter := f.counter + 1, inFlight := some { f with stray := stray } }
      (kind = .standdown → exec (.uplinkFrame c) s = .next (inFlight false).settle) ∧
      (∀ p, kind ≠ .standdown → indexIn 64 (b 0) = some p →
        (own p → exec (.uplinkFrame c) s = .next (inFlight false).settle) ∧
        (¬ own p → exec (.uplinkFrame c) s = .next (told p (inFlight true)).settle))) ∧
    (∀ why k, x.inFlight = none →
      (x.testCode s.pen.cw f, why, k) ∈ [(CodeResult.inLock, NoteCode.code, UnitCounter.inLock),
        (.wrongCode, .code, .wrongCode), (.replay, .replay, .replay), (.ahead, .ahead, .ahead)] →
      let y : UnitCtx := if x.codeLock then x2.count k else { x2.count k with
        failures := min 3 (x.failures + 1), codeLock := decide (3 ≤ x.failures + 1) }
      let w := if x.codeLock = false ∧ 3 ≤ x.failures + 1 then ((taken y).raise (.codeLock u kind why)).writeUnit u
        else taken y
      let done : State → Prop := fun v =>
        ∃ t, exec (.uplinkFrame c) s = .next t.settle ∧ Undisturbed (v.modUnit u (doneOf f)) t ∧ MessagesStand v t ∧
          (t.unit u).stats = y.stats
      (∀ p, kind ≠ .standdown → indexIn 64 (b 0) = some p →
        (own p → ∃ v, CrewRefused w v p kind why (if kind = .stepDone then b 1 else 0) none ∧ done v) ∧
        (¬ own p → done (told p w))) ∧
      (∀ i, kind = .standdown → indexIn 192 (b 2) = some i →
        let z := s.worker i
        let emergency : Prop := z.state = .emergency ∨ (z.state = .acknowledged ∧ z.origin = .emergency)
        let refused : State → State := fun v =>
          let v := v.raise (.standdownRefused i x.address why)
          { v with lws := { s.lws with refusedStanddowns := satInc s.lws.refusedStanddowns } }
        (¬ emergency ∨ s.unitNamed z.noteUnit = none → done (refused w)) ∧
        (∀ d, emergency → s.unitNamed z.noteUnit = some d → ∃ v,
          Undisturbed (w.modDue d fun q => { q with
            alarm := insertAlarm i (if z.state = .acknowledged then .acknowledged else .received) q.alarm }) v ∧
          done (refused v)))))

/-! ## Posting and the outcome of an entry -/

/-- How a verb's step ends. What the link engine does of its own leaves all that Safety.Undisturbed names as it was. The
outcome is written into the entry's outcome byte, and no other byte outside the notice pages changes; then the next entry is
reached, or after the last one the page returns to HOST, the page that waits is taken up, and PAGE DONE is raised with the
count and the number of entries not DONE (R182). -/
def Obligations.EntryIsFinished : Prop :=
  (∀ s : State, Undisturbed s s.settle) ∧
  ∀ (s : State) (r : PageRun) (o : VerbOutcome), s.xif.mode.busOn = true → s.xif.busPlan = [] → MemoryCanonical s →
    r.next < 64 →
    let t := s.finishEntry r o
    let n := r.notDone + (if o = .done then 0 else 1)
    let written : Memory := s.mem.write (s.areaAddr r.page.postingRegion (16 * r.next + 1)) (BitVec.ofNat 8 o.code)
    let x : Xif := { s.xif.setPage r.page .host with
      consuming := s.xif.waiting.map fun w => { page := w.1, count := w.2, next := 0, notDone := 0 }
      waiting := none }
    (r.next + 1 < r.count →
      t = { s with mem := written, xif := { s.xif with consuming := some { r with next := r.next + 1, notDone := n } } }) ∧
    (r.count ≤ r.next + 1 →
      Wrote [.noticeA, .noticeB] { s with mem := written, xif := x } t ∧
      NoticeAt { s with mem := written, xif := x } t (.pageDone r.page r.count n))

/-- A verb whose index lies outside its table is refused BAD_INDEX and touches no context; an entry whose code is not
among the verbs is refused BAD_VERB (R36, R113, R182). -/
def Obligations.BadIndexAndBadVerb : Prop :=
  (∀ (v : Instr × Nat × Nat) (s : State) (r : PageRun) (e : PostingEntry), v ∈ verbTable →
    Posted s v.2.1 r e → v.2.2 ≤ e.index → VerbRefused v.1 s r .badIndex) ∧
  (∀ (s : State) (r : PageRun) (e : PostingEntry), Posted s e.verb r e → (e.verb = 0 ∨ 20 < e.verb) →
    VerbRefused .badVerb s r .badVerb)

/-! ## Unit verbs -/

/-- UNIT_REGISTER: STATE, MALFORMED and CONFLICT in that order; else the context is set up from the record, with the
unit record and its counter field written (R50). When something is due to the unit (log 19) a search for it begins: it is
SEARCHING, or UNREACHABLE when no channel is enabled (R84, R86). WORKER_ON: STATE unless OFF, then NOT_REGISTERED; else
the settings are brought into range, each replacement logged (in the order of log 21), and the worker is ON_DUTY with a
new interval; last check-in, last position and open permit stay (R156, R157). -/
def Obligations.UnitRegisterAndWorkerOn : Prop :=
  (∀ (s : State) (r : PageRun) (e : PostingEntry) (u : UnitIx), Posted s 1 r e → indexIn 96 e.index = some u →
    let h := s.unitHost u
    let x : UnitCtx := { UnitCtx.unregistered with
      registered := true, address := h.address, key := h.key, counter := h.counter, hint := h.hint,
      resync := .wanted, birth := s.ule.nextRef }
    let s' := ((s.setUnit u x).writeUnit u).writeCounter u
    ((s.unit u).registered = true → VerbRefused .unitRegister s r .state) ∧
    ((s.unit u).registered = false → h.address = 0 ∨ 1000 < h.address → VerbRefused .unitRegister s r .malformed) ∧
    ((s.unit u).registered = false → 1 ≤ h.address → h.address ≤ 1000 →
      (∃ v, (s.unit v).registered = true ∧ (s.unit v).address = h.address) →
      VerbRefused .unitRegister s r .conflict) ∧
    ((s.unit u).registered = false → 1 ≤ h.address → h.address ≤ 1000 →
      (∀ v, (s.unit v).registered = true → (s.unit v).address ≠ h.address) →
      VerbAnswers .unitRegister s r .done fun t =>
        Undisturbed s' t ∧ (s'.somethingDue u = false → t = s') ∧
        (s'.somethingDue u = true →
          ((∃ c, (s.port c).enabled = true) → (t.unit u).reach = .searching) ∧
          ((∀ c, (s.port c).enabled = false) → (t.unit u).reach = .unreachable)))) ∧
  (∀ (s : State) (r : PageRun) (e : PostingEntry) (w : WorkerIx), Posted s 5 r e → indexIn 192 e.index = some w →
    let x := s.worker w
    let h := s.workerHost w
    let interval := max 1 (min 240 h.interval)
    let lead := if interval ≤ min 30 h.lead then interval - 1 else min 30 h.lead
    let deadline := s.second + interval * 60
    let y : WorkerCtx := { x with
      state := .onDuty, bound := some h.address, interval := interval, lead := lead, grace := min 60 h.grace,
      escalation := max 1 (min 30 h.escalation), deadline := some deadline, timer := some (deadline - lead * 60),
      origin := .none, dutyBefore := true, noteUnit := none }
    let log : List ClampEntry :=
      replaced (.worker w) 0x02 h.interval interval ++ replaced (.worker w) 0x03 h.lead (min 30 h.lead) ++
      replaced (.worker w) 0x03 (min 30 h.lead) lead ++ replaced (.worker w) 0x04 h.grace (min 60 h.grace) ++
      replaced (.worker w) 0x05 h.escalation (max 1 (min 30 h.escalation))
    (x.state ≠ .off → VerbRefused .workerOn s r .state) ∧
    (x.state = .off → (∀ u, (s.unit u).registered = true → (s.unit u).address ≠ h.address) →
      VerbRefused .workerOn s r .notRegistered) ∧
    (x.state = .off → (∃ u, (s.unit u).registered = true ∧ (s.unit u).address = h.address) →
      VerbAnswers .workerOn s r .done fun t => t = ((s.setWorker w y).clamps log).writeWorker w))

/-- UNIT_RELEASE: NOT_REGISTERED, then STATE while a block refers to the unit; else the context is cleared, no frame of
its outstanding list waits on any channel, and neither does a frame placed for its due set, the registered field of its
record is written clear, and the note queues of its ended permits are cleared (R51, R112). -/
def Obligations.UnitRelease : Prop :=
  ∀ (s : State) (r : PageRun) (e : PostingEntry) (u : UnitIx), Posted s 2 r e → indexIn 96 e.index = some u →
    let x := s.unit u
    let used : Prop := (∃ o, (s.order o).state.live = true ∧ (s.order o).unit = x.address) ∨
      (∃ p, (s.permit p).state.isOpen = true ∧ (s.permit p).crew = x.address) ∨
      (∃ w, (s.worker w).bound = some x.address ∧ (s.worker w).state ≠ .off) ∨ x.inFlight ≠ none
    (x.registered = false → VerbRefused .unitRelease s r .notRegistered) ∧
    (x.registered = true → used → VerbRefused .unitRelease s r .state) ∧
    (x.registered = true → ¬ used → VerbAnswers .unitRelease s r .done fun t =>
      Undisturbed (s.setUnit u .unregistered) t ∧ t.unit u = .unregistered ∧
      (MemoryCanonical s → (t.field .units (64 * u.val + 0x0F) 1).testBit 7 = false) ∧
      (∀ out ∈ x.out, ∀ c, ∀ it ∈ t.offer c, it.frame.ref ≠ out.ref) ∧
      (∀ out ∈ x.out, ∀ c f, Waits t c f → f.ref ≠ out.ref) ∧
      (∀ k pl, x.due.placedAt k = some pl → ∀ c f, Waits t c f → f.ref ≠ pl.ref) ∧
      (∀ p, (s.permit p).crew = x.address → (s.permit p).state = .closed ∨ (s.permit p).state = .cancelled →
        (t.permit p).notes = [] ∧ (t.permit p).inFlight = 0))

/-- UNIT_RESYNC: NOT_REGISTERED; else DONE, without change while a resync runs, and otherwise with a resync started: RUNNING,
attempts 0, RESYNC due, timer stopped, no entry waiting or queued, no repeat mark (R52, R70). An UNKNOWN unit in RUNNING
is searched for at once, since RESYNC is due to it (R84), so of it the frame alone is said. -/
def Obligations.UnitResync : Prop :=
  ∀ (s : State) (r : PageRun) (e : PostingEntry) (u : UnitIx), Posted s 3 r e → indexIn 96 e.index = some u →
    let x := s.unit u
    (x.registered = false → VerbRefused .unitResync s r .notRegistered) ∧
    (x.registered = true → VerbAnswers .unitResync s r .done fun t =>
      Undisturbed s t ∧ (x.resync = .running → t = s) ∧
      (x.resync ≠ .running → (x.reach ≠ .unknown ∨ s.xif.mode ≠ .running) →
        (t.unit u).resync = .running ∧ (t.unit u).resyncAttempts = 0 ∧ (t.unit u).timer = .stopped ∧
        (t.unit u).due.resync = true ∧
        ∀ out ∈ (t.unit u).out, out.placement ≠ .waiting ∧ out.placement ≠ .queued ∧ out.repeatMark = false))

/-- UNIT_REKEY: NOT_REGISTERED, then STATE while a counter write-back is in flight; else the record's key is taken, the
larger of the two counters kept and written back, and the failure count and lock cleared; nothing else of the context
changes (R53, R151). -/
def Obligations.UnitRekey : Prop :=
  ∀ (s : State) (r : PageRun) (e : PostingEntry) (u : UnitIx), Posted s 4 r e → indexIn 96 e.index = some u →
    let x := s.unit u
    let h := s.unitHost u
    (x.registered = false → VerbRefused .unitRekey s r .notRegistered) ∧
    (x.registered = true → x.inFlight ≠ none → VerbRefused .unitRekey s r .state) ∧
    (x.registered = true → x.inFlight = none → VerbAnswers .unitRekey s r .done fun t =>
      t = ((s.setUnit u { x with
        key := h.key, counter := if h.counter.toNat < x.counter.toNat then x.counter else h.counter,
        failures := 0, codeLock := false }).writeUnit u).writeCounter u)

/-! ## Worker verbs -/

/-- WORKER_OFF: in ON_DUTY and PROMPTED the timer stops, the deadline is none and the state OFF, a PROMPTED worker is
withdrawn from its unit's PROMPT request, and the record is written; ALARM_OPEN in an unaccounted state, STATE in OFF, and
neither changes anything. Listed workers that are OFF, ON_DUTY or PROMPTED are all accounted for (R158). -/
def Obligations.WorkerOff : Prop :=
  ∀ (s : State) (r : PageRun) (e : PostingEntry) (w : WorkerIx), Posted s 6 r e → indexIn 192 e.index = some w →
    let x := s.worker w
    let y : WorkerCtx := { x with state := .off, deadline := none, timer := none }
    (x.state = .onDuty → VerbAnswers .workerOff s r .done fun t => t = (s.setWorker w y).writeWorker w) ∧
    (x.state = .prompted → (∀ u, s.unitNamed x.bound = some u → VerbAnswers .workerOff s r .done fun t =>
      t = ((s.modDue u fun d => { d with prompt := d.prompt.filter fun v => v != w }).setWorker w y).writeWorker w)) ∧
    (x.state = .prompted → s.unitNamed x.bound = none → VerbAnswers .workerOff s r .done fun t =>
      t = (s.setWorker w y).writeWorker w) ∧
    (x.state.unaccounted = true → VerbRefused .workerOff s r .alarmOpen) ∧
    (x.state = .off → VerbRefused .workerOff s r .state) ∧
    ∀ ws : List Nat, (∀ n ∈ ws, ∀ v, indexIn 192 n = some v →
      (s.worker v).state = .off ∨ (s.worker v).state = .onDuty ∨ (s.worker v).state = .prompted) →
      ¬ SomeoneUnaccounted s ws

/-- ALARM_ACK: in OVERDUE, ESCALATED and EMERGENCY the timer stops, the state becomes ACKNOWLEDGED with the origin kept,
the record is written, and the worker stands in its note unit's ALARM_NOTE request with note ACKNOWLEDGED, when a context
holds that address; STATE in any other state (R165, R168). That the origin is kept also where a record changed by the server
restored the worker with an origin that is not its state's is the model's choice (log 62). -/
def Obligations.AlarmAck : Prop :=
  ∀ (s : State) (r : PageRun) (e : PostingEntry) (w : WorkerIx), Posted s 7 r e → indexIn 192 e.index = some w →
    let x := s.worker w
    let s' := (s.setWorker w { x with state := .acknowledged, timer := none }).writeWorker w
    let alarm : Prop := x.state = .overdue ∨ x.state = .escalated ∨ x.state = .emergency
    (¬ alarm → VerbRefused .alarmAck s r .state) ∧
    (alarm → s.unitNamed x.noteUnit = none → VerbAnswers .alarmAck s r .done fun t => t = s') ∧
    (alarm → ∀ u, s.unitNamed x.noteUnit = some u → VerbAnswers .alarmAck s r .done fun t =>
      Undisturbed (s'.modDue u fun d => { d with alarm := insertAlarm w .acknowledged d.alarm }) t ∧
      (w, AlarmNote.acknowledged) ∈ (t.unit u).due.alarm)

/-- ALARM_CLEAR: in ACKNOWLEDGED the worker is ON_DUTY with a new interval when it was supervised before and OFF with the
deadline none when it was not, the alarm origin none and the record written; STATE in any other state (R167). That duty before decides
also for a worker that a record changed by the server restored with origin OVERDUE and duty before not supervised is the
model's choice (log 61). -/
def Obligations.AlarmClear : Prop :=
  ∀ (s : State) (r : PageRun) (e : PostingEntry) (w : WorkerIx), Posted s 8 r e → indexIn 192 e.index = some w →
    let x := s.worker w
    let deadline := s.second + x.interval * 60
    (x.state ≠ .acknowledged → VerbRefused .alarmClear s r .state) ∧
    (x.state = .acknowledged → x.dutyBefore = true → VerbAnswers .alarmClear s r .done fun t =>
      t = (s.setWorker w { x with
        state := .onDuty, deadline := some deadline, timer := some (deadline - x.lead * 60),
        origin := .none }).writeWorker w) ∧
    (x.state = .acknowledged → x.dutyBefore = false → VerbAnswers .alarmClear s r .done fun t =>
      t = (s.setWorker w { x with
        state := .off, deadline := none, timer := none, origin := .none }).writeWorker w)

/-! ## Order verbs -/

/-- ORDER_POST: the five tests in order; else the context is set up afresh, HELD or QUEUED by its permit, the stamp counter
rises, the record is written, and for a QUEUED order the start of sending is taken (R92, R94). A reply-wanted byte other than
1 is no, log 44. The start of sending, when a port is enabled and the unit has no SENDING order, takes the first QUEUED order
in queue order, HELD ones passed over: it is SENDING with no deadline, its segments sized from the common segment limit, its
counts at 0, the link engine told and the record written; in any other case nothing changes (R93, R95). -/
def Obligations.OrderPost : Prop :=
  (∀ (s : State) (r : PageRun) (e : PostingEntry) (o : OrderIx), Posted s 9 r e → indexIn 256 e.index = some o →
    let h := s.orderHost o
    let malformed : Prop := 480 < h.bodyLen ∨ 3 < h.priority ∨ 1440 < h.expiry ∨ ∃ n, h.permit = some n ∧ 63 < n
    let unknown : Prop := ∀ u, (s.unit u).registered = true → (s.unit u).address ≠ h.address
    let gone : Prop := ∃ n, h.permit = some n ∧ s.permitStateOf n ∈
      [PermitState.free, PermitState.restoring, PermitState.closed, PermitState.cancelled]
    let full : Prop := 16 ≤ (s.orderQueue h.address).length
    let held : Prop := ∃ n, h.permit = some n ∧ s.permitStateOf n ≠ .holding
    let x : OrderCtx := { OrderCtx.free with
      unit := h.address, priority := h.priority, permit := h.permit, replyWanted := h.replyWanted,
      expiry := h.expiry, bodyLen := h.bodyLen, body := s.orderBody o h.bodyLen, stamp := s.odp.stamp,
      postedAt := s.second, deadline := if h.expiry = 0 then none else some (s.second + 60 * h.expiry) }
    let taken : OrderState → State := fun st =>
      ({ s.setOrder o { x with state := st } with odp := { s.odp with stamp := s.odp.stamp + 1 } }).writeOrder o
    let free : Prop := (s.order o).state.live = false
    (¬ free → VerbRefused .orderPost s r .state) ∧
    (free → malformed → VerbRefused .orderPost s r .malformed) ∧
    (free → ¬ malformed → unknown → VerbRefused .orderPost s r .notRegistered) ∧
    (free → ¬ malformed → ¬ unknown → gone → VerbRefused .orderPost s r .state) ∧
    (free → ¬ malformed → ¬ unknown → ¬ gone → full → VerbRefused .orderPost s r .capacity) ∧
    (free → ¬ malformed → ¬ unknown → ¬ gone → ¬ full → held → VerbAnswers .orderPost s r .done fun t =>
      t = taken .held) ∧
    (free → ¬ malformed → ¬ unknown → ¬ gone → ¬ full → ¬ held → VerbAnswers .orderPost s r .done fun t =>
      t = (taken .queued).startSending h.address ∧ OrdersMoved (taken .queued) t)) ∧
  (∀ (s : State) (a : Nat),
    let sends : Prop := ∃ q, (s.order q).state = .sending ∧ (s.order q).unit = a
    let waits : OrderIx → Prop := fun q => (s.order q).state = .queued ∧ (s.order q).unit = a
    ((∀ c, (s.port c).enabled = false) ∨ sends ∨ (∀ q, ¬ waits q) → s.startSending a = s) ∧
    (∀ o, (∃ c, (s.port c).enabled = true) → ¬ sends → waits o →
      (∀ q, waits q → q ≠ o → (s.order q).priority < (s.order o).priority ∨
        ((s.order q).priority = (s.order o).priority ∧ (s.order o).stamp < (s.order q).stamp)) →
      let z := s.order o
      let size := s.xif.commonLimit - 2
      s.startSending a = ((s.setOrder o { z with
        state := .sending, deadline := none, segSize := some size,
        segCount := some (if z.bodyLen = 0 then 1 else (z.bodyLen + size - 1) / size),
        nextSeg := 0, acked := 0 }).tellDue a).writeOrder o))

/-- ORDER_WITHDRAW by the state of the order: QUEUED and HELD become WITHDRAWN; SENDING and not cancelling enters the
withdraw path with its end state WITHDRAWN and its ORDER_CANCEL due; already cancelling it stays as it is; in the other
states the verb is refused STATE (R101). How the messages of a SENDING order are confirmed, one after another: an
acknowledged segment is counted, with the record written, and the last one of an order not cancelling makes it
DELIVERED, in the same change ACCEPTED when no reply is wanted (a reply restored from a record is kept, log 65), or as
its early reply says (the notices by log 29); an acknowledged ORDER_CANCEL ends the order in its end state; either way
the start of sending follows. Unsent, a segment takes next segment back to it, and an ORDER_CANCEL is DUE again. A
dropped message, and any of an order not SENDING, changes nothing (R97, R102). -/
def Obligations.OrderWithdraw : Prop :=
  (∀ (s : State) (r : PageRun) (e : PostingEntry) (o : OrderIx), Posted s 10 r e → indexIn 256 e.index = some o →
    let x := s.order o
    (x.state = .queued ∨ x.state = .held → VerbAnswers .orderWithdraw s r .done fun t =>
      t = (s.setOrder o { x with state := .withdrawn }).writeOrder o) ∧
    (x.state = .sending → x.cancelling = none → VerbAnswers .orderWithdraw s r .done fun t =>
      t = ((s.setOrder o { x with cancelling := some .withdrawn, cancel := .due }).tellDue x.unit).writeOrder o) ∧
    (x.state = .sending → x.cancelling ≠ none → VerbAnswers .orderWithdraw s r .done fun t => t = s.writeOrder o) ∧
    (x.state ≠ .queued → x.state ≠ .held → x.state ≠ .sending → VerbRefused .orderWithdraw s r .state)) ∧
  (∀ (s : State) (es : List OutEntry) (how : Confirmation),
    s.confirmAll es how = es.foldl (fun v e => v.confirm e.producer how) s) ∧
  (∀ (s : State) (o : OrderIx) (k : Nat),
    let z := s.order o
    let segment := s.confirm (.orderSegment o k)
    let cancel := s.confirm (.orderCancel o)
    let counted : OrderCtx := { z with acked := z.acked + 1 }
    let ended : OrderCtx → Notice → State := fun y told =>
      (((s.setOrder o y).raise told).writeOrder o).startSending z.unit
    let last : Prop := z.segCount = some (z.acked + 1) ∧ z.cancelling = none
    segment .dropped = s ∧ cancel .dropped = s ∧
    (z.state ≠ .sending → ∀ how, segment how = s ∧ cancel how = s) ∧
    (z.state = .sending →
      (¬ last → segment .acknowledged = (s.setOrder o counted).writeOrder o) ∧
      (last → z.earlyReply = none → z.replyWanted = true →
        segment .acknowledged = ended { counted with state := .delivered } (.delivered o z.unit .delivered)) ∧
      (last → z.earlyReply = none → z.replyWanted = false →
        segment .acknowledged = ended { counted with state := .accepted } (.delivered o z.unit .accepted)) ∧
      (∀ reply, last → z.earlyReply = some reply →
        let entered : OrderState := match reply.decision with
          | .accept => .accepted
          | .decline => .declined
        segment .acknowledged =
          ((((s.setOrder o { counted with reply := some reply, state := entered }).raise
            (.delivered o z.unit entered)).raise (.replied o reply)).writeOrder o).startSending z.unit) ∧
      segment .unsent = s.setOrder o { z with nextSeg := min z.nextSeg k } ∧
      (z.cancelling = some .withdrawn →
        cancel .acknowledged = ended { z with state := .withdrawn } (.withdrawn o z.unit z.acked)) ∧
      (z.cancelling = some .failed → cancel .acknowledged =
        ended { z with state := .failed, failure := .permitGone } (.failed o z.unit .permitGone)) ∧
      cancel .unsent = s.setOrder o { z with cancel := .due }))

/-- BULLETIN: the four tests in order; else one BULLETIN frame joins the end of the offer list of each chosen channel, the
record is WITHDRAWN with a stamp and the body length, and the notice BULLETIN gives the channels and the members (R104).
That every other field of the context is cleared, whatever an earlier use left in unit, priority, permit, reply wanted,
expiry, body, posted at, deadline, next segment, segments acknowledged, cancelling, cancel state and early reply, is the
model's choice, log 49. A channel is chosen when it is enabled and a member is REACHABLE on it, or, when none is anywhere,
when it is enabled. -/
def Obligations.Bulletin : Prop :=
  ∀ (s : State) (r : PageRun) (e : PostingEntry) (o : OrderIx), Posted s 11 r e → indexIn 256 e.index = some o →
    let len := (s.orderHost o).bodyLen
    let member : UnitIx → Prop := fun u => (s.unit u).registered = true ∧
      (e.group = 0 ∨ (s.unit u).address / 2 ^ e.mask = e.group / 2 ^ e.mask)
    let reached : Chan → Prop := fun c => (s.port c).enabled = true ∧
      ∃ u, member u ∧ (s.unit u).reach = .reachable ∧ (s.unit u).current = some c
    let chosen : Chan → Prop := fun c => reached c ∨ ((s.port c).enabled = true ∧ ∀ d, ¬ reached d)
    let free : Prop := (s.order o).state.live = false
    let malformed : Prop := 1023 < e.group ∨ 9 < e.mask ∨ 62 < len ∨ s.xif.commonLimit < len + 2
    let silent : Prop := ∀ c, (s.port c).enabled = false
    let full : Prop := ∃ c, chosen c ∧ 8 ≤ s.bulletinsWaiting c
    let x : OrderCtx := { OrderCtx.free with state := .withdrawn, stamp := s.odp.stamp, bodyLen := len }
    (¬ free → VerbRefused .bulletin s r .state) ∧
    (free → malformed → VerbRefused .bulletin s r .malformed) ∧
    (free → ¬ malformed → silent → VerbRefused .bulletin s r .channelState) ∧
    (free → ¬ malformed → ¬ silent → full → VerbRefused .bulletin s r .capacity) ∧
    (free → ¬ malformed → ¬ silent → ¬ full → VerbAnswers .bulletin s r .done fun t =>
      ∃ (v : State) (chans : List Chan) (members : List UnitIx),
        (∀ c, c ∈ chans ↔ chosen c) ∧ (∀ u, u ∈ members ↔ member u) ∧ members.Nodup ∧
        t = (v.raise (.bulletin o chans members.length)).writeOrder o ∧
        v = { s.setOrder o x with
          offers := v.offers, ule := { s.ule with nextRef := v.ule.nextRef },
          odp := { s.odp with stamp := s.odp.stamp + 1 } } ∧
        (∀ c, ¬ chosen c → v.offer c = s.offer c) ∧
        (∀ c, chosen c → ∃ ref, s.ule.nextRef ≤ ref ∧ v.offer c = s.offer c ++ [{
          moment := s.ule.moment,
          frame := {
            kind := .bulletin, unit := none, ref := ref, attempt := 0, started := false,
            payload := beBytes 2 (e.group * 64 + e.mask * 4) ++ s.orderBody o len } }]))

/-! ## Permit verbs -/

/-- PERMIT_ISSUE: the tests of R113 in order; else the context is set up afresh, POSTED with its header due, each listed
worker bound to it, its record written, and the engine told that a message is due (R114, R129). How a permit's messages are
confirmed: each confirmation lowers the in-flight count; an acknowledged header takes POSTED to ISSUED with the notice and
the record, and an unsent one is due again in POSTED and ISSUED; an unsent step that is the current one of an ACTIVE or
RESTORING permit and SENT is DUE again; a note leaves the queue, or, unsent, is to be given again; nothing else changes
(R116). -/
def Obligations.PermitIssue : Prop :=
  (∀ (s : State) (r : PageRun) (e : PostingEntry) (p : PermitIx), Posted s 12 r e → indexIn 64 e.index = some p →
    let x := s.permit p
    let h := s.permitHost p
    let busy : Prop := x.state.isOpen = true ∨ (x.state ≠ .free ∧ x.inFlight ≠ 0)
    let noCrew : Prop := ∀ u, (s.unit u).registered = true → (s.unit u).address ≠ h.crew
    let conflict : Prop := ∃ n ∈ h.workers, ∃ w, indexIn 192 n = some w ∧
      ((∃ q, (s.worker w).openPermit = some q ∧ q ≠ p) ∨ s.unitNamed (s.worker w).bound = none)
    let y : PermitCtx := { PermitCtx.free with
      state := .posted, crew := h.crew, workers := h.workers, sections := h.sections, n := h.n, h := h.h,
      steps := h.steps.take h.n, headerDue := true }
    (busy → VerbRefused .permitIssue s r .state) ∧
    (¬ busy → PermitMalformed h → VerbRefused .permitIssue s r .malformed) ∧
    (¬ busy → ¬ PermitMalformed h → noCrew → VerbRefused .permitIssue s r .notRegistered) ∧
    (¬ busy → ¬ PermitMalformed h → ¬ noCrew → conflict → VerbRefused .permitIssue s r .conflict) ∧
    (¬ busy → ¬ PermitMalformed h → ¬ noCrew → ¬ conflict → VerbAnswers .permitIssue s r .done fun t =>
      t = (((s.setPermit p y).bindAll p (workersNamed h.workers)).writePermit p).tellDue h.crew ∧
      ∀ w, t.worker w = { s.worker w with
        openPermit := if w.val ∈ h.workers then some p else (s.worker w).openPermit })) ∧
  (∀ (s : State) (p : PermitIx) (k id : Nat),
    let x := s.permit p
    let y : PermitCtx := { x with inFlight := x.inFlight - 1 }
    let header := s.confirm (.permitHeader p)
    let step := s.confirm (.permitStep p k)
    let note := s.confirm (.permitNote p id)
    let atStep : Prop := (x.state = .active ∨ x.state = .restoring) ∧ k = x.current ∧ x.stepState k = .sent
    (x.state = .posted →
      header .acknowledged = ((s.setPermit p { y with state := .issued }).raise (.issued p x.crew)).writePermit p) ∧
    (x.state ≠ .posted → header .acknowledged = s.setPermit p y) ∧
    (x.state = .posted ∨ x.state = .issued → Undisturbed s (header .unsent) ∧
      (header .unsent).permit p = { y with headerSent := false, headerDue := true }) ∧
    (x.state ≠ .posted → x.state ≠ .issued → header .unsent = s.setPermit p y) ∧
    header .dropped = s.setPermit p y ∧
    (∀ how, how ≠ .unsent ∨ ¬ atStep → step how = s.setPermit p y) ∧
    (atStep → Undisturbed s (step .unsent) ∧ ((step .unsent).permit p).stepState k = .due ∧
      (∀ j, j ≠ k → ((step .unsent).permit p).step j = x.step j) ∧
      (step .unsent).permit p = { y with steps := ((step .unsent).permit p).steps }) ∧
    (∀ how, how ≠ .unsent → note how = s.setPermit p { y with notes := x.notes.filter fun m => m.id != id }) ∧
    Undisturbed s (note .unsent) ∧ (note .unsent).permit p =
      { y with notes := x.notes.map fun m => if m.id = id then { m with given := false } else m })

/-- PERMIT_CANCEL in POSTED, ISSUED and ACTIVE: header due no, a current step DUE or INTERLOCKED made PENDING and every
other step as it was, a note CANCELLED queued, the state CANCELLED, every listed worker unbound, its orders failed or
withdrawn, the notice and the record; STATE in every other state (R127, R128, R103). -/
def Obligations.PermitCancel : Prop :=
  ∀ (s : State) (r : PageRun) (e : PostingEntry) (p : PermitIx), Posted s 13 r e → indexIn 64 e.index = some p →
    let x := s.permit p
    let early : Prop := x.state = .posted ∨ x.state = .issued ∨ x.state = .active
    (¬ early → VerbRefused .permitCancel s r .state) ∧
    (early → VerbAnswers .permitCancel s r .done fun t => ∃ v1 v : State,
      Undisturbed ({ s with pen := penAfterNote s x }.setPermit p { x with state := .cancelled }) v1 ∧
      OrdersMoved (v1.unbindAll p) v ∧
      v.permit p = { x with
        state := .cancelled, headerDue := false, steps := (v.permit p).steps, notes := (v.permit p).notes } ∧
      (x.stepState x.current = .due ∨ x.stepState x.current = .interlocked →
        (v.permit p).stepState x.current = .pending ∧ ∀ k, k ≠ x.current → (v.permit p).step k = x.step k) ∧
      (x.stepState x.current ≠ .due → x.stepState x.current ≠ .interlocked → (v.permit p).steps = x.steps) ∧
      NoteQueued x (v.permit p) .cancelled 0 ∧
      (∀ w, w.val ∈ x.workers → (v.worker w).openPermit ≠ some p) ∧
      (∀ w, w.val ∉ x.workers → v.worker w = s.worker w) ∧
      OrdersGone s v p ∧
      t = (v.raise (.cancelled p x.state)).writePermit p)

/-- PERMIT_SURRENDER_LOCAL in HOLDING: ALARM_OPEN while a listed worker is unaccounted for, with nothing changed; else the
permit is SURRENDER_PENDING with source LOCAL, its QUEUED orders are HELD, the unstarted segments of its SENDING orders are
withheld, and the notice SURRENDER_REQUEST is raised; STATE in any other state (R124, R123, R98, R103). -/
def Obligations.PermitSurrenderLocal : Prop :=
  ∀ (s : State) (r : PageRun) (e : PostingEntry) (p : PermitIx), Posted s 14 r e → indexIn 64 e.index = some p →
    let x := s.permit p
    (x.state ≠ .holding → VerbRefused .permitSurrenderLocal s r .state) ∧
    (x.state = .holding → SomeoneUnaccounted s x.workers → VerbRefused .permitSurrenderLocal s r .alarmOpen) ∧
    (x.state = .holding → ¬ SomeoneUnaccounted s x.workers →
      VerbAnswers .permitSurrenderLocal s r .done fun t => ∃ v : State,
        OrdersMoved (s.setPermit p { x with state := .surrenderPending, source := .desk }) v ∧
        (∀ o, (s.order o).permit = some p.val → (s.order o).state = .queued → (v.order o).state = .held) ∧
        (∀ o u, (s.order o).permit = some p.val → (s.order o).state = .sending →
          s.unitOf (s.order o).unit = some u →
          ∀ out ∈ (v.unit u).out, ∀ k, out.producer = .orderSegment o k → out.everOnAir = true) ∧
        t = (v.raise (.surrenderRequest p true)).writePermit p)

/-- PERMIT_ACCEPT_SURRENDER in SURRENDER_PENDING: ALARM_OPEN while a listed worker is unaccounted for; else each section
of the list loses a hold, the steps interlocked on a section whose count falls to 0 become DUE (what frames resume with
them is log 50), and the permit is CLOSED when h equals n and RESTORING with step h + 1 DUE otherwise, with its orders
failed or withdrawn, the notice and the record; STATE in any other state (R125, R136, R138, R128, R103). -/
def Obligations.PermitAcceptSurrender : Prop :=
  ∀ (s : State) (r : PageRun) (e : PostingEntry) (p : PermitIx), Posted s 15 r e → indexIn 64 e.index = some p →
    let x := s.permit p
    let lowered := s.lowerHolds x.holdSections
    let released : State → Prop := fun v => ∀ q st, q ≠ p → (s.permit q).step (s.permit q).current = some st →
      st.state = .interlocked → st.sect ∈ x.sections → s.hold st.sect ≤ 1 →
      (v.permit q).stepState (s.permit q).current = .due
    let holds : State → Prop := fun v => ∀ k, v.hold k = if k ∈ x.sections then s.hold k - 1 else s.hold k
    (x.state ≠ .surrenderPending → VerbRefused .permitAcceptSurrender s r .state) ∧
    (x.state = .surrenderPending → SomeoneUnaccounted s x.workers →
      VerbRefused .permitAcceptSurrender s r .alarmOpen) ∧
    (x.state = .surrenderPending → ¬ SomeoneUnaccounted s x.workers → x.h = x.n →
      VerbAnswers .permitAcceptSurrender s r .done fun t => ∃ v1 v : State,
        Undisturbed (lowered.setPermit p { x with state := .closed }) v1 ∧
        OrdersMoved (v1.unbindAll p) v ∧
        (∀ w, w.val ∈ x.workers → (v.worker w).openPermit ≠ some p) ∧
        holds v ∧ released v ∧ OrdersGone s v p ∧
        t = (v.raise (.closed p false)).writePermit p) ∧
    (x.state = .surrenderPending → ¬ SomeoneUnaccounted s x.workers → x.h ≠ x.n →
      VerbAnswers .permitAcceptSurrender s r .done fun t => ∃ v : State,
        OrdersMoved (lowered.setPermit p { x with state := .restoring, current := x.h + 1 }) v ∧
        (x.h < x.steps.length → (v.permit p).stepState (x.h + 1) = .due) ∧
        holds v ∧ released v ∧ OrdersGone s v p ∧
        t = (v.raise (.restoring p (x.h + 1))).writePermit p)

/-- PERMIT_REFUSE_SURRENDER in SURRENDER_PENDING: the permit is HOLDING again with its holds and its surrender source as
they were, a note SURRENDER_REFUSED is queued (its subject kind for a restored source of none is log 66), its HELD
orders are QUEUED again, of which one may start sending, and the notice HOLDING is raised; STATE in any other state
(R126, R103, R95). -/
def Obligations.PermitRefuseSurrender : Prop :=
  ∀ (s : State) (r : PageRun) (e : PostingEntry) (p : PermitIx), Posted s 16 r e → indexIn 64 e.index = some p →
    let x := s.permit p
    (x.state ≠ .surrenderPending → VerbRefused .permitRefuseSurrender s r .state) ∧
    (x.state = .surrenderPending → VerbAnswers .permitRefuseSurrender s r .done fun t => ∃ v : State,
      OrdersMoved ({ s with pen := penAfterNote s x }.setPermit p { x with state := .holding }) v ∧
      NoteQueued x (v.permit p) .surrenderRefused (if x.source = .crew then 22 else 0) ∧
      (∀ o, (s.order o).permit = some p.val → (s.order o).state = .held →
        (v.order o).state = .queued ∨ (v.order o).state = .sending) ∧
      t = (v.raise (.holding p x.sections true)).writePermit p)

/-! ## Channel verbs -/

/-- CHANNEL_SET: CHANNEL_STATE unless OFF, then MALFORMED when the new L_max is below 24 or there is none, then IN_USE when
it is below the largest segment payload of the SENDING orders; else the port takes the settings in range, with its L_max, a
full credit and an empty accumulator, each replacement is logged with the value found and the value used, in the order of
log 21, which also logs a C_max brought into range and raised to TOT / 5 twice, and its status block is written (R36, R37,
R17). A default taken for 0 is not logged. -/
def Obligations.ChannelSet : Prop :=
  ∀ (s : State) (r : PageRun) (e : PostingEntry) (c : Chan), Posted s 17 r e → indexIn 4 e.index = some c →
    let p := s.port c
    let f := fun off n => s.field .config (0x010 + 16 * c.val + off) n
    let tot := max 100 (min 1000 (f 0x3 2))
    let cfg : ChannelSettings :=
      { rate := min 2 (f 0x0 1), preamble := max 20 (min 250 (f 0x1 2)), tot := tot,
        duty := max 5 (min 100 (f 0x5 1)), cmax := max (max 20 (min 2000 (f 0x6 2))) (tot / 5),
        replyWait := if f 0x8 2 = 0 then 1500 else max 100 (min 5000 (f 0x8 2)),
        stuckLimit := if f 0xA 1 = 0 then 10 else max 1 (min 60 (f 0xA 1)) }
    let short : Prop := ∀ l, cfg.lmax = some l → l < 24
    let below : Prop := cfg.lmax.getD 0 < s.largestSegment
    (p.state ≠ .off → VerbRefused .channelSet s r .channelState) ∧
    (p.state = .off → short → VerbRefused .channelSet s r .malformed) ∧
    (p.state = .off → ¬ short → below → VerbRefused .channelSet s r .inUse) ∧
    (p.state = .off → ¬ short → ¬ below → VerbAnswers .channelSet s r .done fun t =>
      let inRange := max 20 (min 2000 (f 0x6 2))
      let log : List ClampEntry :=
        replaced (.channel c) 0x0 (f 0x0 1) cfg.rate ++ replaced (.channel c) 0x1 (f 0x1 2) cfg.preamble ++
        replaced (.channel c) 0x3 (f 0x3 2) cfg.tot ++ replaced (.channel c) 0x5 (f 0x5 1) cfg.duty ++
        replaced (.channel c) 0x6 (f 0x6 2) inRange ++ replaced (.channel c) 0x6 inRange cfg.cmax ++
        (if f 0x8 2 = 0 then [] else replaced (.channel c) 0x8 (f 0x8 2) cfg.replyWait) ++
        (if f 0xA 1 = 0 then [] else replaced (.channel c) 0xA (f 0xA 1) cfg.stuckLimit)
      t = ((s.setPort c { p with
        settings := some cfg, lmax := cfg.lmax, credit := cfg.cmax, acc := 0 }).clamps log).writeChannelStatus c)

/-- Channels entering and leaving service. CHANNEL_ENABLE: CHANNEL_STATE unless OFF, then MALFORMED and IN_USE by the L_max;
else the port enters service with a full credit, an empty accumulator and its slot timer running, IDLE or RECEIVING by the
carrier, the common segment limit is recomputed, UNREACHABLE units and UNKNOWN ones with something due (log 19) are searched
for, ENABLED is raised, and orders may start sending (R38, R22, R88, R95). That the start of sending comes after the
searches and the ENABLED notice, and takes the units in index order, is the model's choice, log 72. CHANNEL_DISABLE: in IDLE
and RECEIVING every entry is handed back, the timers stop, the port is OFF and DISABLED is raised; in TRANSMITTING it keeps
the frame on air and is closing; in both the limit is recomputed and the channel is lost to the units (R68, R88); in OFF or
when closing it is DONE with only the status block written, and in FAULT it is refused CHANNEL_STATE (R39, R36). A
modem-alert in service and the TX-done watchdog's expiry in TRANSMITTING take the port to FAULT: timers stopped, flags
cleared, every entry handed back, the channel lost to the units, the limit recomputed, the fault counted and told, the
status block written; at the watchdog, taken at its time or later (log 2), the modem is commanded to unkey (R31, R35). In
other states a modem-alert is ignored (R19), and the watchdog's expiry is no event (log 1). The limit recomputed is the
smallest L_max over the enabled ports, and 64 with none enabled (R22). -/
def Obligations.ChannelService : Prop :=
  (∀ (s : State) (r : PageRun) (e : PostingEntry) (c : Chan), Posted s 18 r e → indexIn 4 e.index = some c →
    let p := s.port c
    let short : Prop := ∀ l, p.lmax = some l → l < 24
    let below : Prop := p.lmax.getD 0 < s.largestSegment
    (p.state ≠ .off → VerbRefused .channelEnable s r .channelState) ∧
    (p.state = .off → short → VerbRefused .channelEnable s r .malformed) ∧
    (p.state = .off → ¬ short → below → VerbRefused .channelEnable s r .inUse) ∧
    (∀ cfg, p.state = .off → ¬ short → ¬ below → p.settings = some cfg →
      VerbAnswers .channelEnable s r .done fun t =>
        let q : Port := { p with
          state := if p.carrier then .receiving else .idle
          credit := cfg.cmax, acc := 0, slotTimer := some (s.xif.clock + 5000), closing := false
          stuckTimer := if p.carrier then some (s.xif.clock + cfg.stuckLimit * 1000000) else none }
        let s' := (s.setPort c q).recomputeLimit
        ∃ v : State, Undisturbed s' v ∧ ChannelGained s' v ∧
          t = ((v.raise (.enabled c p.lmax s'.xif.commonLimit)).startSendingAll).writeChannelStatus c)) ∧
  (∀ (s : State) (r : PageRun) (e : PostingEntry) (c : Chan), Posted s 19 r e → indexIn 4 e.index = some c →
    let p := s.port c
    (p.state = .fault → VerbRefused .channelDisable s r .channelState) ∧
    (p.state = .off ∨ (p.state = .transmitting ∧ p.closing = true) →
      VerbAnswers .channelDisable s r .done fun t => t = s.writeChannelStatus c) ∧
    (p.state = .idle ∨ p.state = .receiving → VerbAnswers .channelDisable s r .done fun t => ∃ v : State,
      Undisturbed (s.setPort c { p with
        state := .off, watchdog := none, stuckTimer := none, slotTimer := none, stuck := false, closing := false,
        queue := [] }) v ∧ (v.port c).queue = [] ∧ ChannelLost s v c p.queue ∧
      t = (v.recomputeLimit.raise (.disabled c v.recomputeLimit.xif.commonLimit)).writeChannelStatus c) ∧
    (p.state = .transmitting → p.closing = false → VerbAnswers .channelDisable s r .done fun t => ∃ v : State,
      Undisturbed (s.setPort c { p with closing := true, queue := p.queue.filter fun q => q.started }) v ∧
      (∀ q ∈ (v.port c).queue, q.started = true) ∧ ChannelLost s v c (p.queue.filter fun q => !q.started) ∧
      t = v.recomputeLimit.writeChannelStatus c)) ∧
  (∀ (s : State) (c : Chan),
    let fault : Port → Port := fun p => { p with
      state := .fault, watchdog := none, stuckTimer := none, slotTimer := none, stuck := false, closing := false,
      queue := [] }
    let p := s.port c
    let after : State → Bool → State := fun v watchdog =>
      (((v.recomputeLimit.modPort c fun p => p.count .faults).raise
        (.fault c watchdog p.queue.length)).writeChannelStatus c).settle
    (p.state.inService = true → ∃ v : State, Undisturbed (s.setPort c (fault p)) v ∧ (v.port c).queue = [] ∧
      ChannelLost s v c p.queue ∧ exec (.modemAlert c) s = .next (after v false)) ∧
    (p.state.inService = false → exec (.modemAlert c) s = .next s) ∧
    (∀ t0, p.state = .transmitting → p.watchdog = some t0 → ∃ v : State,
      Undisturbed ((s.advanceTo t0).setPort c (fault { p with modemCmd := .unkey })) v ∧ (v.port c).queue = [] ∧
      ChannelLost s v c p.queue ∧ exec (.txDoneWatchdogExpiry c) s = .next (after v true)) ∧
    (p.state ≠ .transmitting → exec (.txDoneWatchdogExpiry c) s = .next s)) ∧
  (∀ s : State,
    let limit := s.recomputeLimit.xif.commonLimit
    s.recomputeLimit = { s with xif := { s.xif with commonLimit := limit } } ∧
    ((∀ c, (s.port c).enabled = false) → limit = 64) ∧
    (∀ c l, (s.port c).enabled = true → (s.port c).lmax = some l → limit ≤ l ∧
      (l ≤ 64 → ∃ d, (s.port d).enabled = true ∧ (s.port d).lmax = some limit)))

/-- CHANNEL_RESET: in FAULT the port is OFF with its queue, credit, accumulator, settings, L_max and counters as they were,
and OFF is raised; in OFF it is DONE without change; in both the status block is written. In service it is refused
CHANNEL_STATE (R40, R36, Table 2-7). -/
def Obligations.ChannelReset : Prop :=
  ∀ (s : State) (r : PageRun) (e : PostingEntry) (c : Chan), Posted s 20 r e → indexIn 4 e.index = some c →
    let p := s.port c
    (p.state = .fault → VerbAnswers .channelReset s r .done fun t =>
      t = ((s.setPort c { p with state := .off }).raise (.off c)).writeChannelStatus c) ∧
    (p.state = .off → VerbAnswers .channelReset s r .done fun t => t = s.writeChannelStatus c) ∧
    (p.state.inService = true → VerbRefused .channelReset s r .channelState)

/-! ## Part-wide commands -/

/-- RESET and POWER_ON: every block's state is dropped, the modems unkey, the pages, pending classes, mask and clock take
their values, the mode is HALTED; RESET keeps XBASE and the fault code and detail, POWER_ON does not and takes each carrier
at the level its modem presents. Nothing is written but counter writes in progress, each of which has reached the exchange
area or not (R44, R152, R180; that the last NOTE value stays readable through RESET is the model's choice, log 6). -/
def Obligations.ResetAndPowerOn : Prop :=
  ∀ s : State, MemoryCanonical s → ∃ (m : Memory) (n : Nat),
    (exec .reset s = .next { State.reset with
      pending := s.pending, mem := m, freeDraw := n
      ports := s.ports.map fun p => Port.off p.carrierPin .unkey
      xif := { Xif.reset with xbase := s.xif.xbase, fault := s.xif.fault, noteData := s.xif.noteData } }) ∧
    (∀ c0 c1 c2 c3 : Bool, exec (.powerOn c0 c1 c2 c3) s = .next { State.reset with
      pending := s.pending, mem := m, freeDraw := n
      ports := #v[.off c0 .unkey, .off c1 .unkey, .off c2 .unkey, .off c3 .unkey] }) ∧
    (s.xif.mode ≠ .running → s.xif.mode ≠ .halting → m = s.mem ∧ n = s.freeDraw) ∧
    (∀ a, (∀ u, (s.unit u).registered = true → (s.unit u).inFlight ≠ none →
        a < s.areaAddr .units (64 * u.val + 0x0A) ∨ s.areaAddr .units (64 * u.val + 0x0A) + 4 ≤ a) →
      m.read a = s.mem.read a) ∧
    (∀ u : UnitIx,
      m.readBytes (s.areaAddr .units (64 * u.val + 0x0A)) 4 = s.fieldBytes .units (64 * u.val + 0x0A) 4 ∨
      m.readBytes (s.areaAddr .units (64 * u.val + 0x0A)) 4 = beBytes 4 (s.unit u).counter.toNat)

/-- START: ignored unless HALTED; refused NO_BASE when XBASE is 0; else, when host memory answers and no permit record
holds an open state, the part is RUNNING with no fault, its clock at 0, both posting pages HOST, the system code and the
mask as the configuration record holds them, no permit open and no section held, and only its own bytes of host memory
written (R176, R177, R178). The server's stores come with the command (log 3). With any records, when host memory
answers: the units recorded as registered are restored with no link state, but for bad and taken addresses (R77); each
worker by its recorded state, with a new interval, or the alarm's timer (R173); the permits by their recorded states, at
the step recorded, no step SENT or INTERLOCKED, with their holds and bindings (R133, R143), up to the first worker
conflict, which makes the part FAULTED with START_CONFLICT (R144; the worker it names of several is log 67); without one
the part is RUNNING and each live order has the fate of its unit, its permit (a number of 64 to 254 names none, log 25),
its queue, FAILED with QUEUE_FULL behind sixteen orders only (of two with equal priority and stamp the lower index is
ahead, log 47), and its expiry (R108); a channel is in service when its enable-at-START byte is 1 (log 44) and its L_max
at least 24 (R45). -/
def Obligations.StartCommand : Prop :=
  ∀ (stores : List Host.Cell) (s : State),
    let s0 := s.setMem (s.mem.stores stores)
    (s.xif.mode ≠ .halted → exec (.start stores) s = .next s0) ∧
    (s.xif.mode = .halted → s.xif.xbase = 0 →
      exec (.start stores) s = .next { s0 with xif := { s0.xif with fault := .noBase } }) ∧
    (s.xif.mode = .halted → s.xif.xbase ≠ 0 → s.xif.busPlan = [] →
      (∀ p : PermitIx, (PermitState.ofNum (s0.field .permits (256 * p.val + 0xA0) 1)).isOpen = false) →
      ∃ t, exec (.start stores) s = .next t ∧
        t.xif.mode = .running ∧ t.xif.fault = .none ∧ t.xif.clockOn = true ∧ t.xif.clock = 0 ∧
        t.xif.postA = .host ∧ t.xif.postB = .host ∧ t.xif.consuming = none ∧ t.xif.filling = .a ∧
        t.xif.xbase = s.xif.xbase ∧ t.pending = s.pending ∧ t.freeDraw = s.freeDraw ∧
        t.xif.systemCode = s0.mem.read (s0.areaAddr .config 0x000) ∧
        t.xif.mask = s0.mem.read (s0.areaAddr .config 0x001) ∧
        (∀ p, (t.permit p).state.isOpen = false) ∧ (∀ k, t.hold k = 0) ∧
        (∀ a, ¬ PartByte allRegions s.xif.xbase.toNat a → t.mem.read a = s0.mem.read a)) ∧
    (s.xif.mode = .halted → s.xif.xbase ≠ 0 → s.xif.busPlan = [] → ∃ t, exec (.start stores) s = .next t ∧
      let uf := fun (u : UnitIx) off n => s0.field .units (64 * u.val + off) n
      let valid : UnitIx → Prop := fun u => (uf u 0x0F 1).testBit 7 = true ∧ 1 ≤ uf u 0x00 2 ∧ uf u 0x00 2 ≤ 1000
      let wf := fun (w : WorkerIx) off n => s0.field .workers (32 * w.val + off) n
      let pf := fun (p : PermitIx) off n => s0.field .permits (256 * p.val + off) n
      let n : PermitIx → Nat := fun p => max 1 (min 16 (pf p 0x02 1))
      let h : PermitIx → Nat := fun p => max 1 (min (n p) (pf p 0x03 1))
      let opens : PermitIx → Prop := fun p => (1 ≤ pf p 0xA0 1 ∧ pf p 0xA0 1 ≤ 5) ∨ (pf p 0xA0 1 = 6 ∧ h p ≠ n p)
      let lists : PermitIx → WorkerIx → Prop := fun p w =>
        ∃ k, k < min 8 (pf p 0x05 1) ∧ pf p (0x0E + k) 1 = w.val
      let conflict : PermitIx → WorkerIx → PermitIx → Prop := fun p w q =>
        q < p ∧ opens p ∧ opens q ∧ lists p w ∧ lists q w
      let restored : PermitIx → Prop := fun p => ∀ p' w q, conflict p' w q → p < p'
      let agreed : Prop := ∀ p w q, ¬ conflict p w q
      (agreed → t.xif.mode = .running ∧ t.xif.fault = .none) ∧
      (¬ agreed → t.xif.mode = .faulted ∧ ∃ p w q, conflict p w q ∧ t.xif.fault = .startConflict p w q) ∧
      (∀ u, (t.unit u).registered = true ↔ valid u ∧ ∀ v, v < u → valid v → uf v 0x00 2 ≠ uf u 0x00 2) ∧
      (∀ u, (t.unit u).registered = true →
        (t.unit u).address = uf u 0x00 2 ∧ (t.unit u).key = s0.fieldBytes .units (64 * u.val + 0x02) 8 ∧
        (t.unit u).counter.toNat = uf u 0x0A 4 ∧ (t.unit u).hint = indexIn 4 (uf u 0x0E 1) ∧
        (t.unit u).current = indexIn 4 (uf u 0x11 1) ∧ (t.unit u).codeLock = (uf u 0x0F 1).testBit 5 ∧
        (t.unit u).failures = uf u 0x0F 1 / 8 % 4 ∧ (t.unit u).resync = .wanted ∧ (t.unit u).out = [] ∧
        (t.unit u).vr = 0 ∧ (t.unit u).vs = 0 ∧ (t.unit u).na = 0) ∧
      (∀ w,
        let x := t.worker w
        let code := wf w 0x06 1 / 32
        let interval := max 1 (min 240 (wf w 0x09 1))
        x.interval = interval ∧
        (code = 0 → x.state = .off ∧ x.timer = none ∧ x.deadline = none) ∧
        (1 ≤ code → code ≤ 3 →
          x.state = .onDuty ∧ x.deadline = some (interval * 60) ∧ x.timer = some (interval * 60 - x.lead * 60)) ∧
        (code = 4 → x.state = .overdue ∧ x.timer = some (x.escalation * 60) ∧ x.deadline = none) ∧
        (code = 5 → x.state = .escalated ∧ x.timer = some (x.escalation * 60) ∧ x.deadline = none ∧
          x.escCount.toNat = wf w 0x08 1) ∧
        (code = 6 → x.state = .emergency ∧ x.timer = none ∧ x.deadline = none) ∧
        (code = 7 → x.state = .acknowledged ∧ x.timer = none ∧ x.deadline = none)) ∧
      (∀ p,
        let x := t.permit p
        let now := pf p 0xA1 1
        (¬ restored p → x = .free) ∧
        (restored p →
          (pf p 0xA0 1 ∈ [1, 2] → x.state = .ofNum (pf p 0xA0 1) ∧ x.current = 0 ∧ x.headerDue = true) ∧
          (pf p 0xA0 1 = 3 → x.state = .active ∧ x.current = if now = 0 ∨ h p < now then 1 else now) ∧
          (pf p 0xA0 1 ∈ [4, 5] → x.state = .ofNum (pf p 0xA0 1) ∧ x.current = h p) ∧
          (pf p 0xA0 1 = 6 → h p ≠ n p →
            x.state = .restoring ∧ x.current = if now ≤ h p ∨ n p < now then h p + 1 else now) ∧
          (pf p 0xA0 1 = 6 → h p = n p → x.state = .closed) ∧
          (pf p 0xA0 1 = 0 ∨ 6 < pf p 0xA0 1 → x.state = .ofNum (pf p 0xA0 1)) ∧
          (opens p → x.steps.length = n p ∧ ∀ k, 1 ≤ k → k ≤ n p → x.stepState k =
            if k < x.current ∨ (x.state.holds = true ∧ k = x.current) then .done
            else if k = x.current then .due else .pending)) ∧
        ∀ k, x.stepState k ≠ .sent ∧ x.stepState k ≠ .interlocked) ∧
      HoldsExact t ∧ WorkersBoundOnce t ∧ OrderQueuesBounded t ∧
      (∀ c,
        let x := t.port c
        let cfg := (s0.channelSettings c).1
        x.settings = some cfg ∧ x.lmax = cfg.lmax ∧ x.credit = cfg.cmax ∧ x.acc = 0 ∧
        x.state = if s0.field .config (0x010 + 16 * c.val + 0xB) 1 = 1 ∧ 24 ≤ cfg.lmax.getD 0 then
          (if (s.port c).carrierPin then .receiving else .idle) else .off) ∧
      (agreed → ∀ o : OrderIx,
        let g := fun (q : OrderIx) off k => s0.field .orders (512 * q.val + off) k
        let f := g o
        let code := f 0x00A 1
        let x := t.order o
        let absent : Prop := ∀ u, (t.unit u).registered = true → (t.unit u).address ≠ f 0x000 2
        let named : Prop := f 0x003 1 ≠ 0xFF
        let gone : Prop := named ∧ t.permitStateOf (f 0x003 1) ∈
          [PermitState.free, PermitState.restoring, PermitState.closed, PermitState.cancelled]
        let held : Prop := named ∧ t.permitStateOf (f 0x003 1) ≠ .holding
        let lapsed : Prop := f 0x006 2 ≠ 0 ∧ code ≠ 3 ∧ f 0x018 4 = 0
        let ahead : OrderIx → Bool := fun q =>
          decide (1 ≤ g q 0x00A 1 ∧ g q 0x00A 1 ≤ 4 ∧ g q 0x000 2 = f 0x000 2 ∧ (t.order q).state ≠ .failed) &&
          decide (f 0x002 1 < g q 0x002 1 ∨ (g q 0x002 1 = f 0x002 1 ∧
            (g q 0x00C 4 < f 0x00C 4 ∨ (g q 0x00C 4 = f 0x00C 4 ∧ q < o))))
        let full : Prop := x.state = .failed ∧ x.failure = .queueFull ∧ 16 ≤ (List.finRange 256).countP ahead
        (code = 0 ∨ 4 < code → x.state = .ofNum code) ∧
        (1 ≤ code → code ≤ 4 →
          (absent → x.state = .failed ∧ x.failure = .unitGone) ∧
          (¬ absent → gone → x.state = .failed ∧ x.failure = .permitGone) ∧
          (¬ absent → ¬ gone → code = 4 → x.state = .delivered ∨ full) ∧
          (¬ absent → ¬ gone → code ≤ 3 → lapsed → x.state = .expired ∨ full) ∧
          (¬ absent → ¬ gone → code ≤ 3 → ¬ lapsed → held → x.state = .held ∨ full) ∧
          (¬ absent → ¬ gone → code ≤ 3 → ¬ lapsed → ¬ held →
            x.state = .queued ∨ x.state = .sending ∨ full))))

/-- HALT: in RUNNING the part is HALTING, and a page handed over and waiting returns to HOST unread with its notice; in
FAULTED it acts as RESET; in the other modes it is ignored (R176, R179). -/
def Obligations.HaltCommand : Prop :=
  ∀ s : State,
    (s.xif.mode = .running → s.xif.waiting = none →
      exec .halt s = .next { s with xif := { s.xif with mode := .halting } }) ∧
    (∀ p n, s.xif.mode = .running → s.xif.waiting = some (p, n) → ∃ t, exec .halt s = .next t ∧
      let s' : State := { s with xif := { s.xif.setPage p .host with mode := .halting, waiting := none } }
      Wrote [.noticeA, .noticeB] s' t ∧ NoticeAt s' t (.pageReturned p)) ∧
    (s.xif.mode = .faulted → exec .halt s = exec .reset s) ∧
    (s.xif.mode = .halted ∨ s.xif.mode = .starting ∨ s.xif.mode = .halting → exec .halt s = .next s)

/-- HALT completes once no page is in progress and no port is TRANSMITTING, when host memory answers: every record is
written as its context stands, which is said here of the permit states, of the counters of registered units and of the
open permits of workers, HALTED is raised, as the next entry of the FILLING page or, when that is full, as an overflow
of class PART, and the page header is written, every block is dropped, the mode is HALTED, and the pending classes and
the mask stay (R179, R150, R183, R184). That a frame whose counter write is completed here is not taken, so that the
permits stand as before, is log 36; that the last NOTE value stays readable too is the model's choice, log 6, and so is
the rejected flag's being clear, log 57; and that a completion whose conditions do not hold is no event is log 1. -/
def Obligations.HaltCompletes : Prop :=
  ∀ s : State, s.xif.busPlan = [] → MemoryCanonical s →
    ((s.xif.mode ≠ .halting ∨ s.xif.consuming ≠ none ∨ ∃ c, (s.port c).state = .transmitting) →
      exec .haltComplete s = .next s) ∧
    (s.xif.mode = .halting → s.xif.consuming = none → (∀ c, (s.port c).state ≠ .transmitting) →
      ∃ m : Memory,
        exec .haltComplete s = .next { State.reset with
          pending := s.pending, mem := m, freeDraw := s.freeDraw
          ports := s.ports.map fun p => Port.off p.carrierPin p.modemCmd
          xif := { Xif.reset with
            xbase := s.xif.xbase, fault := s.xif.fault, pending := s.xif.pending ||| 2#8, mask := s.xif.mask,
            noteData := s.xif.noteData } } ∧
        (∀ a, ¬ PartByte allRegions s.xif.xbase.toNat a → m.read a = s.mem.read a) ∧
        (∀ p : PermitIx, m.read (s.areaAddr .permits (256 * p.val + 0xA0)) = byteOf (s.permit p).state.num) ∧
        (∀ u : UnitIx, (s.unit u).registered = true →
          m.readBytes (s.areaAddr .units (64 * u.val + 0x0A)) 4 = beBytes 4 (s.unit u).counter.toNat) ∧
        (∀ w : WorkerIx, m.read (s.areaAddr .workers (32 * w.val + 0x07)) =
          byteOf (((s.worker w).openPermit.map Fin.val).getD 255)) ∧
        let page := s.areaAddr s.xif.filling.noticeRegion
        let header := fun (n : Nat) (overflow : Vector Byte 8) =>
          [byteOf n] ++ overflow.toList ++ beBytes 4 s.second ++ [0, 0, 0]
        (s.xif.notices < 127 → m.readBytes (page 0) 16 = header (s.xif.notices + 1) s.xif.overflow ∧
          m.readBytes (page (16 * (s.xif.notices + 1))) 16 = Notice.halted.bytes s.second) ∧
        (127 ≤ s.xif.notices →
          m.readBytes (page 0) 16 = header s.xif.notices (s.xif.overflow.set 1 (satInc s.xif.overflow[1]))))

/-! ## Registers -/

/-- A write to XBASE is taken in HALTED, its low 12 bits ignored and read back as zero, and ignored in every other mode; a
write to XCTL or NOTE that carries no command changes nothing of the part (R174, R176, Table 11-12). The server's stores
come with the second (log 3). -/
def Obligations.RegisterWrites : Prop :=
  (∀ (v : BitVec 32) (s : State), s.xif.mode = .halted → ∃ t, exec (.xbaseWrite v) s = .next t ∧
    t = { s with xif := { s.xif with xbase := t.xif.xbase } } ∧ t.xbaseRead = v &&& 0xFFFFF000#32) ∧
  (∀ (v : BitVec 32) (s : State), s.xif.mode ≠ .halted → exec (.xbaseWrite v) s = .next s) ∧
  (∀ (g : ControlRegister) (v : BitVec 32) (stores : List Host.Cell) (s : State), g.carriesNoCommand v = true →
    exec (.registerWriteIgnored g v stores) s = .next { s with mem := s.mem.stores stores })

/-- A handover is accepted in RUNNING, for a page that is HOST, with a count from 1 to 64: the page becomes PART, the
rejected flag is cleared, and the page is consumed from its entry 0, or waits while another is consumed. A handover that
fails any of the three sets the rejected flag and changes nothing else (R181). The server's stores come with it (log 3). -/
def Obligations.PostHandover : Prop :=
  ∀ (v : BitVec 32) (stores : List Host.Cell) (s : State),
    let page : Page := if v.getLsbD 8 then .b else .a
    let count := v.toNat % 128
    let s0 : State := { s with mem := s.mem.stores stores }
    let accepted : Prop := s.xif.mode = .running ∧ s.xif.page page = .host ∧ 1 ≤ count ∧ count ≤ 64
    (¬ accepted → exec (.postHandover v stores) s = .next { s0 with xif := { s.xif with rejected := true } }) ∧
    (accepted → s.xif.consuming = none → exec (.postHandover v stores) s = .next { s0 with
      xif := { s.xif.setPage page .part with
        rejected := false, consuming := some { page := page, count := count, next := 0, notDone := 0 } } }) ∧
    (accepted → s.xif.consuming ≠ none → exec (.postHandover v stores) s = .next { s0 with
      xif := { s.xif.setPage page .part with rejected := false, waiting := some (page, count) } })

/-- TAKE, where it is taken and host memory answers: the FILLING page's header gets the number of notices, the overflow
counts and the service time, that page is TAKEN, and the other is FILLING with no notices and overflow counts 0; in HALTED
and FAULTED it is ignored (R183, Table 10-3). A read of NOTE returns the highest pending class, or 0, and clears that
class's bit alone; the interrupt line is asserted while a pending class is not masked (R185). -/
def Obligations.TakeAndNoteRead : Prop :=
  ∀ s : State,
    (s.xif.mode = .halted ∨ s.xif.mode = .faulted → exec .take s = .next s) ∧
    (s.xif.mode ≠ .halted → s.xif.mode ≠ .faulted → s.xif.busPlan = [] → exec .take s = .next { s with
      mem := s.mem.writeBytes (s.areaAddr s.xif.filling.noticeRegion 0)
        ([byteOf s.xif.notices] ++ s.xif.overflow.toList ++ beBytes 4 s.second ++ [0, 0, 0])
      xif := { s.xif with
        filling := s.xif.filling.other, otherTaken := true, notices := 0, overflow := Vector.replicate 8 0 } }) ∧
    (s.xif.pending = 0 → ∃ t, exec .noteRead s = .next t ∧
      t = { s with xif := { s.xif with noteData := t.xif.noteData } } ∧ t.xif.noteData.toNat % 256 = 0) ∧
    (∀ k, k < 8 → s.xif.pending.getLsbD k = true → (∀ j, j < k → s.xif.pending.getLsbD j = false) →
      ∃ t, exec .noteRead s = .next t ∧
        t = { s with xif := { s.xif with noteData := t.xif.noteData, pending := t.xif.pending } } ∧
        t.xif.noteData.toNat % 256 = k + 1 ∧
        ∀ j, j < 8 → t.xif.pending.getLsbD j = (s.xif.pending.getLsbD j && decide (j ≠ k))) ∧
    (s.interruptLine = true ↔ ∃ j, j < 8 ∧ s.xif.pending.getLsbD j = true ∧ s.xif.mask.getLsbD j = false)

/-- The periodic status, when host memory answers and the service clock runs: every channel status block, the record of
every registered unit and the status fields hold what their blocks hold, nothing else changes, and it next falls due at a
later multiple of 60 seconds (R175, R41, R74). That it first falls due at second 0, and that one late write stands for
all that are past, is the model's choice, log 32; the clock moves up to the second it fell due, log 2. -/
def Obligations.PeriodicStatus : Prop :=
  ∀ s : State, s.xif.clockOn = true → s.xif.mode.busOn = true → s.xif.busPlan = [] → MemoryCanonical s →
    ∃ t, exec .periodicStatusWrite s = .next t ∧
      t = { s with
        mem := t.mem, xif := { s.xif with clock := t.xif.clock, nextPeriodic := t.xif.nextPeriodic } } ∧
      MemoryCanonical t ∧
      (∀ a,
        let outside : Nat → Nat × List Byte → Prop := fun at0 f => a < at0 + f.1 ∨ at0 + f.1 + f.2.length ≤ a
        (∀ c : Chan, ∀ f ∈ (s.port c).statusFields, outside (s.areaAddr .config (0x050 + 32 * c.val)) f) →
        (∀ u : UnitIx, (s.unit u).registered = true → ∀ f ∈ (s.unit u).partFields,
          outside (s.areaAddr .units (64 * u.val)) f) →
        (∀ f ∈ s.statusFields, outside (s.areaAddr .config 0) f) → t.mem.read a = s.mem.read a) ∧
      t.xif.clock = max s.xif.clock (s.xif.nextPeriodic * 1000000) ∧
      t.second < t.xif.nextPeriodic ∧ t.xif.nextPeriodic ≤ t.second + 60 ∧ t.xif.nextPeriodic % 60 = 0 ∧
      (∀ (c : Chan), ∀ f ∈ (s.port c).statusFields,
        t.fieldBytes .config (0x050 + 32 * c.val + f.1) f.2.length = f.2) ∧
      (∀ (u : UnitIx), (s.unit u).registered = true → ∀ f ∈ (s.unit u).partFields,
        t.fieldBytes .units (64 * u.val + f.1) f.2.length = f.2) ∧
      (∀ f ∈ s.statusFields, t.fieldBytes .config f.1 f.2.length = f.2)

/-- An access not completed in 32 us is made once more: when that completes, bus retries rises by 1; when it does not, the
part is FAULTED with BUS_TIMEOUT and the region and direction of the access, the PART class pending and the service clock
running. An access to come meets its timeout when it is made (R186, R187). The operands are the model's form, log 7. -/
def Obligations.BusAccessTimeout : Prop :=
  ∀ (s : State) (r : Region) (w : Bool),
    (s.xif.mode.busOn = true → exec (.busAccessTimeout (.now r w) false) s =
      .next { s with xif := { s.xif with busRetries := satInc s.xif.busRetries } }) ∧
    (s.xif.mode.busOn = true → exec (.busAccessTimeout (.now r w) true) s =
      .next { s with xif := { s.xif with
        mode := .faulted, fault := .busTimeout r w, clockOn := true, pending := s.xif.pending ||| 2#8 } }) ∧
    (∀ again, s.xif.busPlan = [] → ∃ t, exec (.busAccessTimeout (.ahead 0) again) s = .next t ∧
      t = { s with xif := { s.xif with busPlan := [(0, again)] } } ∧
      t.access r w = (if again then { s with xif := { s.xif with
          mode := .faulted, fault := .busTimeout r w, clockOn := true, pending := s.xif.pending ||| 2#8 } }
        else { s with xif := { s.xif with busRetries := satInc s.xif.busRetries } }))

/-! ## Modem events and port timers -/

/-- Carrier-up: in IDLE the port is RECEIVING with the carrier-stuck timer at the full limit, in TRANSMITTING the
indication is recorded and the timer started, out of service the indication alone. Carrier-down: RECEIVING ends in IDLE,
the timer stops, and a set stuck flag is cleared with RESTORED raised (R19, R32). The seconds in RESTORED are counted on the
present run's clock, also for a carrier up before START: the model's choice, log 31. -/
def Obligations.CarrierEvents : Prop :=
  ∀ (s : State) (c : Chan),
    let p := s.port c
    let up : Port := { p with carrier := true, carrierPin := true, carrierUpAt := s.xif.clock }
    let stuckAt := p.settings.map fun cfg => s.xif.clock + cfg.stuckLimit * 1000000
    let down : Port := { p with carrier := false, carrierPin := false }
    (p.carrier = false → p.state = .idle → exec (.carrierUp c) s =
      .next ((s.setPort c { up with state := .receiving, stuckTimer := stuckAt }).writeChannelStatus c)) ∧
    (p.carrier = false → p.state = .transmitting → exec (.carrierUp c) s =
      .next (s.setPort c { up with stuckTimer := stuckAt })) ∧
    (p.carrier = false → p.state = .off ∨ p.state = .fault → exec (.carrierUp c) s = .next (s.setPort c up)) ∧
    (p.carrier = true → p.state = .receiving → p.stuck = false → exec (.carrierDown c) s =
      .next ((s.setPort c { down with state := .idle, stuckTimer := none }).writeChannelStatus c)) ∧
    (p.carrier = true → p.state = .transmitting → p.stuck = false → exec (.carrierDown c) s =
      .next (s.setPort c { down with stuckTimer := none })) ∧
    (p.carrier = true → p.state = .receiving ∨ p.state = .transmitting → p.stuck = true →
      let s' := s.setPort c { down with
        state := if p.state = .receiving then .idle else .transmitting, stuckTimer := none, stuck := false }
      ∃ t, exec (.carrierDown c) s = .next t ∧ Wrote [.noticeA, .noticeB, .config] s' t ∧
        NoticeAt s' t (.restored c ((s.xif.clock - p.carrierUpAt) / 1000000))) ∧
    (p.carrier = true → p.state = .off ∨ p.state = .fault → exec (.carrierDown c) s = .next (s.setPort c down))

/-- A frame received in service takes a place of the receive buffer and is counted, or is dropped as an overrun when all
4 are held; out of service it is ignored. The receive checks take the oldest frame not yet examined: one that passes
waits in its place, and one that fails is discarded and counted, also behind frames that wait (log 69); with none left
to examine the checks are no event (R19, R34, log 1). A frame passes exactly when it has 12 to 76 bytes, its check
passes, its length field is at most 64 and counts its payload, it has this system code, goes up from an address of 1 to
1000, and has the flags and the payload of one of the ten uplink kinds (Table 1-5); one of 12 to 76 bytes whose check
does not pass is a check failure, and any other is malformed (R6 to R9). -/
def Obligations.ReceiveBuffer : Prop :=
  ∀ (s : State) (c : Chan),
    let p := s.port c
    (∀ bs, p.state.inService = true → p.rx.length < 4 → exec (.frameReceived c bs) s =
      .next (s.setPort c (Port.count { p with rx := p.rx ++ [{ bytes := bs, passed := false }] } .received))) ∧
    (∀ bs, p.state.inService = true → 4 ≤ p.rx.length → exec (.frameReceived c bs) s =
      .next (s.setPort c (p.count .overruns))) ∧
    (∀ bs, p.state.inService = false → exec (.frameReceived c bs) s = .next s) ∧
    (∀ (old : List RxFrame) (bs : List Byte) (rest : List RxFrame), (∀ f ∈ old, f.passed = true) →
      p.rx = old ++ { bytes := bs, passed := false } :: rest →
      exec (.receiveChecks c) s = .next (s.setPort c (
        match receiveCheck s.xif.systemCode bs with
        | .passed => { p with rx := old ++ { bytes := bs, passed := true } :: rest }
        | .checkFailure => Port.count { p with rx := old ++ rest } .checkFailures
        | .malformed => Port.count { p with rx := old ++ rest } .malformed))) ∧
    ((∀ f ∈ p.rx, f.passed = true) → exec (.receiveChecks c) s = .next s) ∧
    ∀ (sys : Byte) (bs : List Byte),
      let h := Header.parse bs
      let b : Nat → Nat := fun i => (byteAt (payloadOf bs) i).toNat
      let kind : Nat → Nat → Prop := fun k l => h.kindCode = k ∧ h.length = l
      let flags : Bool → Bool → Prop := fun sequenced expedited =>
        h.sequenced = sequenced ∧ h.expedited = expedited
      let sized : Prop := 12 ≤ bs.length ∧ bs.length ≤ 76
      (receiveCheck sys bs = .passed ↔ sized ∧ checkPasses bs = true ∧ h.length ≤ 64 ∧ bs.length = 12 + h.length ∧
        h.systemCode = sys ∧ h.up = true ∧ 1 ≤ h.address ∧ h.address ≤ 1000 ∧
        ((flags true false ∧
            ((kind 16 1 ∧ b 0 ≤ 191) ∨ (kind 18 9 ∧ b 2 ≤ 191) ∨ (kind 19 3 ∧ 1 ≤ b 1 ∧ b 1 ≤ 2) ∨
              (kind 20 9 ∧ b 0 ≤ 63) ∨
              (kind 21 9 ∧ b 0 ≤ 63 ∧ 1 ≤ b 1 ∧ b 1 ≤ 16 ∧ (b 2 ≤ 191 ∨ b 2 = 255)) ∨ (kind 22 9 ∧ b 0 ≤ 63))) ∨
          (flags false true ∧
            ((((kind 17 3 ∧ b 2 = 0) ∨ (kind 17 11 ∧ b 2 = 1)) ∧ b 0 ≤ 191 ∧ 1 ≤ b 1 ∧ b 1 ≤ 3) ∨ kind 24 0)) ∨
          (flags false false ∧ (kind 23 0 ∨ kind 25 0)))) ∧
      (receiveCheck sys bs = .checkFailure ↔ sized ∧ checkPasses bs = false)

/-- A tx-done in TRANSMITTING stops the watchdog, takes the frame from the queue and counts it; the port is OFF when it
was closing, with DISABLED raised, else RECEIVING or IDLE by the carrier, and its status block is written. A sequenced
frame whose entry the engine holds without a repeat mark is SENT; with it the mark is cleared, and the entry waits on
the unit's current channel again with its attempt number raised, or is UNPLACED while the unit is not REACHABLE. For it,
when resync pending is NO and the unit is REACHABLE, the reply wait of the channel that sent the frame is timed, or left
paused while the unit is busy; but a timer that a roam stopped starts only on the unit's new channel (R80; a roam while
a resync runs and a timer that runs again: log 46); else the timer stays. The tx-done of a RESYNC frame times the reply
wait of a running resync (that of an earlier registration of the context changes nothing, log 9), and that of the probe
POLL counts the probe and times it; any other changes nothing of its unit (R30, R39, R66, R71, R83, R85). In any other
state of the port it is ignored (R19). -/
def Obligations.TxDone : Prop :=
  ∀ (s : State) (c : Chan),
    let p := s.port c
    let sent : Port := Port.count { p with watchdog := none, queue := p.queue.filter fun q => !q.started } .sent
    let q : Port :=
      if p.closing then { sent with
        state := .off, closing := false, stuck := false, stuckTimer := none, slotTimer := none }
      else { sent with state := if p.carrier then .receiving else .idle }
    (p.state ≠ .transmitting → exec (.txDone c) s = .next s) ∧
    (p.state = .transmitting → ∃ v : State, Undisturbed (s.setPort c q) v ∧
      exec (.txDone c) s = .next
        (((if p.closing then v.recomputeLimit.raise (.disabled c v.recomputeLimit.xif.commonLimit) else v
          ).writeChannelStatus c).settle) ∧
      ∀ e u cfg, p.queue.find? (fun e => e.started) = some e → e.unit = some u →
        (s.unit u).registered = true → p.settings = some cfg →
        let x := s.unit u
        let y := v.unit u
        let timed := s.xif.clock + cfg.replyWait * 1000
        (∀ out, e.kind.due = none → x.out.find? (fun o => o.ref == e.ref) = some out →
          let entry : (OutEntry → Prop) → Prop := fun said => ∀ o ∈ y.out, o.ref = e.ref → said o
          (out.repeatMark = false → entry fun o => o.placement = .sent) ∧
          (out.repeatMark = true → x.reach ≠ .reachable ∨ x.current = none →
            entry fun o => o.placement = .unplaced ∧ o.repeatMark = false) ∧
          (∀ d, out.repeatMark = true → x.reach = .reachable → x.current = some d → (x.out.map OutEntry.ref).Nodup →
            (entry fun o => o.placement = .waiting ∧ o.repeatMark = false ∧ o.attempt = min 7 (out.attempt + 1)) ∧
            ∃ it ∈ v.offer d, it.frame.ref = e.ref) ∧
          (x.resync = .no → x.reach = .reachable → (x.timer = .roamed → x.current = some c) →
            y.timer = if x.busy then .paused (cfg.replyWait * 1000) else .running timed) ∧
          (x.resync ≠ .no ∨ x.reach ≠ .reachable ∨ (x.timer = .roamed ∧ x.current ≠ some c) → y.timer = x.timer)) ∧
        (e.kind.due = none → (∀ o ∈ x.out, o.ref ≠ e.ref) → y = x) ∧
        (e.kind = .resync → x.resync = .running → x.birth ≤ e.ref → y = { x with timer := .running timed }) ∧
        (e.kind = .resync → x.resync ≠ .running ∨ e.ref < x.birth → y = x) ∧
        (e.kind = .poll → x.reach = .searching → x.probeRef = some e.ref →
          y = { x with probesSent := x.probesSent + 1, probeRef := none, searchTimer := some timed }) ∧
        (e.kind = .poll → x.reach ≠ .searching ∨ x.probeRef ≠ some e.ref → y = x) ∧
        (e.kind ∈ [.prompt, .alarmNote, .reportDown] → y = x))

/-- At each expiry of the credit slot timer of a port in service: with the credit at C_max the accumulator is 0; otherwise
it gains D, and at 100 or more it loses 100 and the credit gains 1. The timer runs again for 5 ms, and nothing else changes
(R23). The expiry is taken at its time or later, log 2. -/
def Obligations.CreditSlotExpiry : Prop :=
  ∀ (s : State) (c : Chan) (t0 : Nat) (cfg : ChannelSettings),
    let p := s.port c
    let expired : Int → Nat → Host.Outcome State Fault Refusal := fun credit acc =>
      .next ((s.advanceTo t0).setPort c { p with credit := credit, acc := acc, slotTimer := some (t0 + 5000) })
    p.state.inService = true → p.slotTimer = some t0 → p.settings = some cfg →
    (p.credit = cfg.cmax → exec (.creditSlotExpiry c) s = expired p.credit 0) ∧
    (p.credit ≠ cfg.cmax → p.acc + cfg.duty < 100 →
      exec (.creditSlotExpiry c) s = expired p.credit (p.acc + cfg.duty)) ∧
    (p.credit ≠ cfg.cmax → 100 ≤ p.acc + cfg.duty →
      exec (.creditSlotExpiry c) s = expired (p.credit + 1) (p.acc + cfg.duty - 100))

/-- When the carrier-stuck timer expires, the port in service with its carrier up sets its stuck flag, counts it, raises
CARRIER_STUCK and writes its status block, which then holds the port's values when host memory answers (R33). The expiry is
taken at its time or later, log 2. -/
def Obligations.CarrierStuckExpiry : Prop :=
  ∀ (s : State) (c : Chan) (t0 : Nat) (cfg : ChannelSettings),
    let p := s.port c
    let s' := (s.advanceTo t0).setPort c (Port.count { p with stuck := true, stuckTimer := none } .stuckEvents)
    p.state.inService = true → p.carrier = true → p.stuckTimer = some t0 → p.settings = some cfg →
    ∃ t, exec (.carrierStuckExpiry c) s = .next t ∧ Wrote [.noticeA, .noticeB, .config] s' t ∧
      NoticeAt s' t (.carrierStuck c cfg.stuckLimit) ∧
      (s.xif.mode.busOn = true → s.xif.busPlan = [] → MemoryCanonical s → ∀ f ∈ (s'.port c).statusFields,
        t.fieldBytes .config (0x050 + 32 * c.val + f.1) f.2.length = f.2)

/-- The candidate is the oldest entry of the highest class present, of SAFETY alone in FAULTED and of none outside
RUNNING (R28, R43). It starts when its credit allows: the frame is built with the header and the payload of this moment,
its cost is spent, the watchdog runs for A plus 100 ms, the modem is commanded to key and send, and the port is
TRANSMITTING with its status block written. REPORT_ONLY leaves the unit's due set; a due-set frame takes its request,
the first 16 workers of a PROMPT or 8 of an ALARM_NOTE with it, and its kind is not placed any more, or placed anew on
the current channel when workers remain; an outstanding entry is ON_AIR (R2, R14, R24, R29, R69). A candidate with
nothing due leaves the queue unsent with its kind not placed, nothing is spent, room is signalled, which lets frames of
the offer list join, and the next candidate is tested; that it is taken to cost as one of payload length 0 is the
model's choice, log 11. The frame of an energising step on a held section does not start (R137); that it leaves the
queue in the same way, its entry UNPLACED, is the model's choice, log 50. A port that may not start, or whose credit
does not allow the candidate, starts nothing. The kinds have the codes, sequencing and classes of Table 1-2. -/
def Obligations.FrameStart : Prop :=
  (∀ row ∈ [(FrameKind.orderSeg, 1, true, 1), (.orderCancel, 2, true, 1), (.permitHdr, 3, true, 2),
      (.permitStep, 4, true, 2), (.permitNote, 5, true, 2), (.prompt, 6, false, 3), (.alarmNote, 7, false, 3),
      (.poll, 8, false, 2), (.resync, 9, false, 3), (.reportDown, 10, false, 2), (.bulletin, 11, false, 0)],
    row.1.code = row.2.1 ∧ row.1.sequenced = row.2.2.1 ∧ row.1.cls.code = row.2.2.2) ∧
  (∀ (p : Port) (m : PartMode) (e : TxEntry),
    let started : TxEntry → Prop := fun q => m = .running ∨ (m = .faulted ∧ q.kind.cls = .safety)
    p.candidate m = some e ↔ started e ∧ (∀ q ∈ p.queue, q.kind.cls.code ≤ e.kind.cls.code) ∧
      ∃ older younger, p.queue = older ++ e :: younger ∧ ∀ q ∈ older, q.kind.cls ≠ e.kind.cls) ∧
  (∀ (s : State) (c : Chan) (cfg : ChannelSettings), (s.port c).settings = some cfg →
    let p := s.port c
    (p.mayStart = true ↔ (p.state = .idle ∨ (p.state = .receiving ∧ p.stuck = true)) ∧ p.closing = false) ∧
    (p.mayStart = false → exec (.frameStart c) s = .next s) ∧
    (p.mayStart = true → p.candidate s.xif.mode = none → exec (.frameStart c) s = .next s.settle) ∧
    (∀ e, p.mayStart = true → p.candidate s.xif.mode = some e →
      let given : Option (List Byte) := match e.unit, e.kind.due with
        | some u, some k =>
          let d := (s.unit u).due
          let ws := d.prompt.take 16
          let ns := d.alarm.take 8
          match k with
          | .resync => if d.resync then some [] else none
          | .poll => if d.poll then some [] else none
          | .report => if d.report then some [] else none
          | .prompt => if ws = [] then none else some (byteOf ws.length :: ws.map fun w => byteOf w.val)
          | .alarmNote => if ns = [] then none else
            some (byteOf ns.length :: ns.flatMap fun n => [byteOf n.1.val, byteOf n.2.num])
        | _, _ => some e.payload
      let cost := cfg.slots (given.getD []).length
      let allowed : Prop := if e.kind.cls = .safety then (cost : Int) - cfg.cmax ≤ p.credit else (cost : Int) ≤ p.credit
      (¬ allowed → exec (.frameStart c) s = .next s.settle) ∧
      let held : Prop := e.kind = .permitStep ∧ byteAt e.payload 8 ≠ 0 ∧ 0 < s.hold (byteAt e.payload 7).toNat
      (given = none ∨ held → allowed → ∃ v : State, ∃ joined : List TxEntry,
        let left := p.queue.filter fun q => q.ref != e.ref
        Undisturbed (s.setPort c { p with queue := left }) v ∧ (v.port c).queue = left ++ joined ∧
        (∀ q ∈ joined, ∃ it ∈ s.offer c, it.frame = q) ∧
        (∀ u k, e.unit = some u → e.kind.due = some k →
          ∀ pl, (v.unit u).due.placedAt k = some pl → pl.ref ≠ e.ref) ∧
        (∀ u, e.unit = some u → e.kind.due = none → (∀ it ∈ s.offer c, it.frame.ref ≠ e.ref) →
          ∀ out ∈ (v.unit u).out, out.ref = e.ref → out.placement = .unplaced ∧ out.repeatMark = false) ∧
        exec (.frameStart c) s = exec (.frameStart c) v) ∧
      (∀ payload, given = some payload → ¬ held → allowed →
        let base : Header :=
          { kindCode := e.kind.code, up := false, expedited := false, sequenced := e.kind.sequenced, address := 0,
            site := c.val, lockout := false, resend := false, busy := false, reportValid := false,
            systemCode := s.xif.systemCode, ns := 0, nextExpected := 0, length := payload.length,
            timeMark := s.second % 65536, cls := e.kind.cls.code, attempt := e.attempt }
        let header : Header := match e.unit with
          | none => base
          | some u =>
            let x := s.unit u
            { base with
              address := x.address, lockout := x.lockout, resend := x.resend, busy := x.awaiting.isSome,
              reportValid := true, nextExpected := x.vr
              ns := ((x.out.find? fun o => o.ref == e.ref).map OutEntry.seq).getD 0 }
        let q : Port := { p with
          credit := p.credit - cost
          watchdog := some (s.xif.clock + cfg.airtime payload.length + 100000)
          modemCmd := .keyAndSend (frameBytes header payload)
          state := .transmitting
          queue := p.queue.map fun x => if x.ref = e.ref then { x with started := true } else x }
        let carried : DueSet → DueSet := fun d => match e.kind.due with
          | some .resync => { d with report := false, resync := false }
          | some .poll => { d with report := false, poll := false }
          | some .prompt => { d with report := false, prompt := d.prompt.drop 16 }
          | some .alarmNote => { d with report := false, alarm := d.alarm.drop 8 }
          | some .report => { d with report := false }
          | none => { d with report := false }
        ∃ v : State,
          (match e.unit with
           | some u => Undisturbed ((s.setPort c q).modDue u carried) v ∧
              (e.kind.due = none → ∀ out ∈ (v.unit u).out, out.ref = e.ref →
                out.placement = .onAir ∧ out.everOnAir = true) ∧
              (e.kind.due = none → (v.unit u).due = carried (s.unit u).due) ∧
              (∀ k, e.kind.due = some k → (carried (s.unit u).due).has k = false →
                (v.unit u).due = (carried (s.unit u).due).setPlaced k none) ∧
              (∀ k d, e.kind.due = some k → (carried (s.unit u).due).has k = true → (s.unit u).reach = .reachable →
                (s.unit u).current = some d → ∃ it ∈ v.offer d, it.frame.kind = e.kind ∧ it.frame.unit = some u ∧
                  (v.unit u).due.placedAt k = some { chan := d, ref := it.frame.ref })
           | none => v = s.setPort c q) ∧
          exec (.frameStart c) s = .next (v.writeChannelStatus c).settle)))

/-! ## Pulls -/

/-- A pull (R65). A unit may take messages in RUNNING while it is registered, REACHABLE, not busy, has no resync pending and
its window has room. A message taken gets V(S), joins the end of the outstanding list, and its frame waits on the current
channel. A pull ends when the unit may take no more or the producers answer none. The lowest-indexed permit of the crew with
a message due answers first: its header, then its oldest note not given, then its current step when that is DUE, unless the
step is energising and its section is held, when it becomes INTERLOCKED with its notice and gives nothing (R115, R137). When
no permit has one, the SENDING order gives its next segment, built by R95, or its ORDER_CANCEL (R96). -/
def Obligations.PullGives : Prop :=
  (∀ (s : State) (u : UnitIx), s.mayPull u = true ↔ s.xif.mode = .running ∧ (s.unit u).registered = true ∧
    (s.unit u).reach = .reachable ∧ (s.unit u).busy = false ∧ (s.unit u).resync = .no ∧
    (s.unit u).out.length < s.ule.window) ∧
  (∀ (s : State) (u : UnitIx) (c : Chan) (m : Message), (s.unit u).current = some c →
    let x := s.unit u
    let e : OutEntry := {
      seq := x.vs, ref := s.ule.nextRef, kind := m.kind, producer := m.producer, payload := m.payload, retries := 0,
      attempt := 0, placement := .waiting, repeatMark := false, everOnAir := false }
    let it : OfferItem := {
      moment := s.ule.moment
      frame := { kind := m.kind, unit := some u, ref := s.ule.nextRef, attempt := 0, payload := m.payload,
                 started := false } }
    ∃ ahead behind, s.offer c = ahead ++ behind ∧
      s.takeMessage u m = (({ s with ule := { s.ule with nextRef := s.ule.nextRef + 1 } }.setUnit u { x with
        vs := x.vs + 1, out := x.out ++ [e] }).setOffer c (ahead ++ it :: behind))) ∧
  (∀ (s : State) (u : UnitIx), (s.unit u).current ≠ none →
    (s.pull u).mayPull u = false ∨ ((s.pull u).giveMessage (s.unit u).address).1 = none) ∧
  (∀ (s : State) (a : Nat) (p : PermitIx), (s.permit p).crew = a →
    (∀ q, q < p → (s.permit q).crew = a → (s.permit q).messageDue = false) →
    let x := s.permit p
    let b := byteOf p.val
    (x.headerDue = true → s.giveMessage a =
      (some {
        producer := .permitHeader p, kind := .permitHdr
        payload := [b, byteOf x.n, byteOf x.h, byteOf x.sections.length] ++ x.sections.map byteOf ++
          [byteOf x.workers.length] ++ x.workers.map byteOf },
       s.setPermit p { x with headerDue := false, headerSent := true, inFlight := x.inFlight + 1 })) ∧
    (∀ given nt later, x.headerDue = false → x.notes = given ++ nt :: later → (∀ m ∈ given, m.given = true) →
      nt.given = false → s.giveMessage a =
        (some {
          producer := .permitNote p nt.id, kind := .permitNote
          payload := [b, byteOf nt.step, byteOf nt.subject, byteOf nt.code.num] },
         s.setPermit p { x with
           notes := x.notes.map fun m => if m.id = nt.id then { m with given := true } else m
           inFlight := x.inFlight + 1 })) ∧
    (∀ st, x.headerDue = false → (∀ m ∈ x.notes, m.given = true) → x.step x.current = some st → st.state = .due →
      (st.energising = 0 ∨ s.hold st.sect = 0 → ∃ y, s.giveMessage a =
        (some {
          producer := .permitStep p x.current, kind := .permitStep
          payload := [b, byteOf x.current, st.action] ++ beBytes 4 st.device.toNat ++ [byteOf st.sect, st.energising] },
         (s.setPermit p y).writePermit p) ∧
        y = { x with steps := y.steps, inFlight := x.inFlight + 1 } ∧ y.stepState x.current = .sent ∧
        ∀ k, k ≠ x.current → y.step k = x.step k) ∧
      (st.energising ≠ 0 → 0 < s.hold st.sect →
        let g := s.giveMessage a
        (∀ m, g.1 = some m → ∀ k, m.producer ≠ .permitStep p k) ∧ (g.2.permit p).stepState x.current = .interlocked ∧
        NoticeAt s g.2 (.interlocked p x.current st.sect (s.hold st.sect) (s.holderOf st.sect) false)))) ∧
  (∀ (s : State) (a : Nat), (∀ p, (s.permit p).crew = a → (s.permit p).messageDue = false) →
    ((∀ o, (s.order o).state = .sending → (s.order o).unit ≠ a) → s.giveMessage a = (none, s)) ∧
    (∀ o, (s.order o).state = .sending → (s.order o).unit = a →
      (∀ q, (s.order q).state = .sending → (s.order q).unit = a → q = o) →
      let z := s.order o
      let allowed : Prop := ∀ n, z.permit = some n → s.permitStateOf n = .holding
      let more : Prop := z.nextSeg < z.segCount.getD 0
      let size := z.segSize.getD 0
      let last := if z.nextSeg + 1 = z.segCount.getD 0 then 1 else 0
      (z.cancelling = none → allowed → more → s.giveMessage a =
        (some {
          producer := .orderSegment o z.nextSeg, kind := .orderSeg
          payload := [byteOf o.val, byteOf (2 * z.nextSeg + last)] ++ (z.body.drop (z.nextSeg * size)).take size },
         s.setOrder o { z with nextSeg := z.nextSeg + 1 })) ∧
      (z.cancelling = none → ¬ allowed ∨ ¬ more → s.giveMessage a = (none, s)) ∧
      (z.cancelling ≠ none → z.cancel = .due → s.giveMessage a =
        (some { producer := .orderCancel o, kind := .orderCancel, payload := [byteOf o.val] },
         s.setOrder o { z with cancel := .pulled })) ∧
      (z.cancelling ≠ none → z.cancel ≠ .due → s.giveMessage a = (none, s))))

/-! ## Uplink frames and counter writes -/

/-- A passed frame from an address no registered context holds is discarded: its place is freed and the port's unregistered
counter rises, and no context is touched. A sequenced frame of a REACHABLE unit on its current channel is discarded and
counted in lockout and while a resync runs, and else by its distance d from V(R): a gap sets the resend flag and REPORT_ONLY
due, a duplicate sets REPORT_ONLY due, any other sets lockout with its notice and the record, and d = 0 with nothing
awaiting done is accepted: V(R) advances past the frame with REPORT_ONLY due (R54, R55, R58 to R62). An accepted CHECKIN for
a worker bound to the unit sets last check-in, and, but for one OFF or in an emergency, makes the worker ON_DUTY with a new
interval and its record written: one PROMPTED is withdrawn from the PROMPT request, and one OVERDUE, ESCALATED or ACKNOWLEDGED
has its alarm origin cleared and CLEARED raised (origin none: log 52); for any other worker it is stray (R163). An accepted
ORDER_REPLY is applied to the unit's order in DELIVERED, kept as the early reply in SENDING, and counted stray in any other
case (R59, R99). It is said of a report with report-valid clear, when no SILENT worker is bound to the unit. -/
def Obligations.UplinkFrame : Prop :=
  ∀ (s : State) (c : Chan) (bs : List Byte) (rest : List RxFrame),
    (s.port c).rx = { bytes := bs, passed := true } :: rest → s.xif.mode.active = true →
    let h := Header.parse bs
    let pay := payloadOf bs
    (s.unitOf h.address = none → exec (.uplinkFrame c) s =
      .next (s.setPort c (Port.count { s.port c with rx := rest } .unregistered))) ∧
    (∀ u : UnitIx, s.unitOf h.address = some u → h.kindCode ∈ [16, 18, 19, 20, 21, 22] → h.reportValid = false →
      (s.port c).enabled = true → (s.unit u).reach = .reachable → (s.unit u).current = some c →
      (∀ v, (s.worker v).state = .silent → (s.worker v).bound ≠ some (s.unit u).address) →
      let x := s.unit u
      let x1 : UnitCtx := { x with lastHeard := some s.second, stats := (x.count .framesHeard).stats }
      let taken : UnitCtx → State := fun y => (s.setPort c { s.port c with rx := rest }).setUnit u y
      let report : UnitCtx → UnitCtx := fun y => { y with due := { y.due with report := true } }
      let counted : UnitCounter → UnitCtx → Prop := fun k y => y.stats = (x1.count k).stats
      let d := (h.ns - x.vr).toNat
      let duplicate : Prop :=
        (d = 0 ∧ x.awaiting ≠ none) ∨ (d ≠ 0 ∧ s.ule.ahead < d ∧ 256 - s.ule.behind ≤ d)
      (x.lockout = true → x.resync ≠ .wanted →
        exec (.uplinkFrame c) s = .next (taken (x1.count .discardedInLockout)).settle) ∧
      (x.lockout = false → x.resync = .running →
        exec (.uplinkFrame c) s = .next (taken (x1.count .discardedInResync)).settle) ∧
      (x.lockout = false → x.resync = .no → d ≠ 0 → d ≤ s.ule.ahead → ∃ v : State,
        exec (.uplinkFrame c) s = .next v.settle ∧ counted .gaps (v.unit u) ∧
        Undisturbed (taken (report { x1 with resend := true })) v) ∧
      (x.lockout = false → x.resync = .no → duplicate → ∃ v : State,
        exec (.uplinkFrame c) s = .next v.settle ∧ counted .duplicates (v.unit u) ∧ Undisturbed (taken (report x1)) v) ∧
      (x.lockout = false → x.resync = .no → d ≠ 0 → s.ule.ahead < d → d < 256 - s.ule.behind →
        exec (.uplinkFrame c) s = .next
          ((((taken { x1.count .lockouts with lockout := true }).raise (.lockout u h.ns x.vr)).writeUnit u).settle)) ∧
      (x.lockout = false → x.resync = .no → x.awaiting = none → h.ns = x.vr →
        let s' := taken (report { x1 with vr := x.vr + 1, resend := false })
        (∀ (w : WorkerIx), h.kindCode = 16 → indexIn 192 (byteAt pay 0).toNat = some w →
          let y := s.worker w
          let deadline := s.second + y.interval * 60
          let seen : WorkerCtx := { y with lastCheckin := some s.second }
          let fresh : WorkerCtx := { seen with
            state := .onDuty, deadline := some deadline, timer := some (deadline - y.lead * 60) }
          let emergency : Prop := y.state = .emergency ∨ (y.state = .acknowledged ∧ y.origin = .emergency)
          ∃ v : State, exec (.uplinkFrame c) s = .next v.settle ∧
            (y.bound ≠ some x.address →
              Undisturbed { s' with lws := { s.lws with strayCheckins := satInc s.lws.strayCheckins } } v) ∧
            (y.bound = some x.address →
              (y.state = .off ∨ emergency → Undisturbed (s'.setWorker w seen) v) ∧
              (y.state = .onDuty → Undisturbed ((s'.setWorker w fresh).writeWorker w) v) ∧
              (y.state = .prompted → Undisturbed (((s'.modDue u fun d => { d with
                prompt := d.prompt.filter fun i => i != w }).setWorker w fresh).writeWorker w) v) ∧
              (y.state ∈ [.overdue, .escalated, .acknowledged] → ¬ emergency → Undisturbed
                (((s'.setWorker w { fresh with origin := .none }).raise (.cleared w y.state)).writeWorker w) v))) ∧
        (∀ (o : OrderIx) (r : Decision), h.kindCode = 19 → indexIn 256 (byteAt pay 0).toNat = some o →
          Decision.ofNum (byteAt pay 1).toNat = some r →
          let z := s.order o
          let reply : Reply := { decision := r, reason := (byteAt pay 2).toNat }
          let entered : OrderState := match r with
            | .accept => .accepted
            | .decline => .declined
          ∃ v : State, exec (.uplinkFrame c) s = .next v.settle ∧
            (z.unit = x.address → z.state = .delivered → Undisturbed
              (((s'.setOrder o { z with reply := some reply, state := entered }).raise (.replied o reply)).writeOrder o) v) ∧
            (z.unit = x.address → z.state = .sending →
              Undisturbed ((s'.setOrder o { z with earlyReply := some reply }).writeOrder o) v) ∧
            (z.unit ≠ x.address ∨ (z.state ≠ .delivered ∧ z.state ≠ .sending) →
              Undisturbed { s' with odp := { s.odp with strayReplies := satInc s.odp.strayReplies } } v))))

/-- What a frame of a registered unit does before its payload is looked at, said of the frames that carry none:
POLL_REPLY, REPORT_ONLY and RESYNC_ACK, when no SILENT worker is bound to the unit. On the unit's current channel, with
resync pending NO, a valid report is taken in this order: entries before next-expected are acknowledged, then busy,
resend and lockout; an invalid one is counted and starts a resync, and a resync leaves the outstanding messages, their
numbers and N_a as they are; one with report-valid clear does nothing (R55 to R57, R70). A RESYNC_ACK completes a
running resync, and with resync pending NO it is counted as unexpected and otherwise ignored, its report too (R72, log
75). Heard on another enabled channel, a REACHABLE unit roams with its traffic (R80), and any other is reacquired: the
search ends, REACQUIRED is raised unless it was UNKNOWN, a WANTED resync starts, and its requests are placed on the
channel, RESYNC ahead of those placed now (R81, log 42). On a channel that is not enabled only an UNKNOWN or UNREACHABLE
unit changes: it is searched for (R79, R82). -/
def Obligations.UplinkLink : Prop :=
  ∀ (s : State) (c : Chan) (bs : List Byte) (rest : List RxFrame) (u : UnitIx),
    (s.port c).rx = { bytes := bs, passed := true } :: rest → s.xif.mode.active = true →
    let h := Header.parse bs
    s.unitOf h.address = some u → (∀ v, (s.worker v).state = .silent → (s.worker v).bound ≠ some (s.unit u).address) →
    let x := s.unit u
    let x1 : UnitCtx := { x with lastHeard := some s.second, stats := (x.count .framesHeard).stats }
    let taken : UnitCtx → State := fun y => (s.setPort c { s.port c with rx := rest }).setUnit u y
    let answers : State → Prop := fun v => exec (.uplinkFrame c) s = .next v.settle
    let counted : UnitCounter → UnitCtx → Prop := fun k y => y.stats = (x1.count k).stats
    let bare : Prop := h.kindCode = 23 ∨ h.kindCode = 25
    let here : Prop := (s.port c).enabled = true ∧ x.reach = .reachable ∧ x.current = some c
    let within : Prop := (h.nextExpected - x.na).toNat ≤ (x.vs - x.na).toNat
    (bare → here → x.resync = .no →
      (h.reportValid = false → answers (taken x1)) ∧
      (h.reportValid = true → ¬ within → ∃ v, answers v ∧ Undisturbed (taken x1) v ∧ ResyncBegun (v.unit u) ∧
        SameNumbers x (v.unit u) ∧ counted .invalidReports (v.unit u)) ∧
      (h.reportValid = true → within → (x.out.map OutEntry.ref).Nodup → ∃ v1 v2 v3 v4, answers v4 ∧
        Acknowledged (taken x1) v1 u h.nextExpected ∧ BusyTaken v1 v2 u h.busy ∧
        (h.resend = false → v3 = v2) ∧
        (h.resend = true → Undisturbed v2 v3 ∧ GoneBack (v3.unit u) ∧
          SameNumbers (v2.unit u) (v3.unit u) ∧
          (v3.unit u).stats = ((v2.unit u).count .resendRequests).stats) ∧
        (h.lockout = false → v4 = v3) ∧
        (h.lockout = true → Undisturbed v3 v4 ∧ ResyncBegun (v4.unit u) ∧ SameNumbers (v3.unit u) (v4.unit u) ∧
          (v4.unit u).stats = (v3.unit u).stats))) ∧
    (h.kindCode = 24 → here →
      (x.resync = .no → answers (taken (x1.count .unexpectedAck))) ∧
      (x.resync = .running → ∃ v,
        Undisturbed (taken { x1 with
          vr := 0, lockout := false, resend := false, busy := false, awaiting := none
          inFlight := x.inFlight.map fun f => { f with live := false }
          codeQueue := x.codeQueue.map fun f => { f with live := false } }) v ∧
        (v.unit u).resync = .no ∧ (v.unit u).due.resync = false ∧ (v.unit u).na = 0 ∧
        (v.unit u).vs = BitVec.ofNat 8 x.out.length ∧
        (v.unit u).out.map (fun e => (e.ref, e.seq, e.retries)) =
          x.out.zipIdx.map (fun e => (e.1.ref, BitVec.ofNat 8 e.2, 0)) ∧
        AllRequeued (v.unit u) ∧ counted .resyncsCompleted (v.unit u) ∧
        answers ((v.raise (.resyncDone u x.out.length)).writeUnit u))) ∧
    (∀ b, bare → h.reportValid = false → (s.port c).enabled = true → x.reach = .reachable → x.current = some b → b ≠ c →
      x.resync = .no → ∃ v, Undisturbed (taken { x1 with current := some c }) v ∧
        (v.unit u).reach = .reachable ∧ (v.unit u).timer = .roamed ∧
        (v.unit u).out.map (fun e => (e.ref, e.seq, e.retries)) = x.out.map (fun e => (e.ref, e.seq, 0)) ∧
        AllRequeued (v.unit u) ∧ DuePlacedOn (v.unit u).due c ∧ counted .siteChanges (v.unit u) ∧
        answers ((v.raise (.siteChange u b c)).writeUnit u)) ∧
    (bare → h.reportValid = false → (s.port c).enabled = true → x.reach ≠ .reachable → ∃ v1 v,
      Undisturbed (taken { x1 with current := some c }) v1 ∧
      Undisturbed (if x.reach = .unknown then v1 else v1.raise (.reacquired u c x.reach)) v ∧ answers v ∧
      (v.unit u).reach = .reachable ∧ (v.unit u).probe = none ∧ (v.unit u).tried = [] ∧
      (v.unit u).searchTimer = none ∧ DuePlacedOn (v.unit u).due c ∧
      (x.reach = .searching → (v.unit u).due.poll = false) ∧
      (x.reach ≠ .unknown → counted .reacquisitions (v.unit u)) ∧
      (x.resync = .no → ∀ out ∈ (v.unit u).out, out.placement ≠ .sent ∧ out.placement ≠ .unplaced) ∧
      (x.resync = .wanted → (v.unit u).resync = .running ∧ (v.unit u).due.resync = true ∧
        (x.due.placedResync = none → ∃ pl, (v.unit u).due.placedResync = some pl ∧
          ∀ k q, k ≠ .resync → (v.unit u).due.placedAt k = some q →
            x.due.placedAt k = some q ∨ pl.ref < q.ref))) ∧
    (bare → h.reportValid = false → (s.port c).enabled = false →
      (x.reach = .reachable ∨ x.reach = .searching → x.resync ≠ .wanted → answers (taken x1)) ∧
      (x.reach = .unknown ∨ x.reach = .unreachable → (∃ d, (s.port d).enabled = true) → ∃ v, answers v ∧
        Undisturbed (taken x1) v ∧ (v.unit u).reach = .searching ∧
        (v.unit u).origin = (if x.reach = .unknown then .first else .again)))

/-- An EMERGENCY from a REACHABLE unit on its current channel is taken in every uplink state, lockout and a running resync
included. For a worker in no emergency: it is in EMERGENCY with its timer stopped, duty before as its state was (supervised
for one ACKNOWLEDGED with origin none, log 52) and the sender as note unit, withdrawn from the PROMPT request if PROMPTED, its
position kept when the frame carries none, and the notice and the record are written. For one in an emergency it is a
repeat: the note unit becomes the sender and a fix the position, REPEAT is raised, and the record is written when the position
changed. ALARM_NOTE is due to the sender with the worker's note in either case (R55, R63, R164, R168). It is said of a report
with report-valid clear, or while a resync runs, when no SILENT worker is bound to the unit. -/
def Obligations.EmergencyTakenInEveryState : Prop :=
  ∀ (s : State) (c : Chan) (bs : List Byte) (rest : List RxFrame) (u : UnitIx) (w : WorkerIx) (cause : EmergencyCause),
    (s.port c).rx = { bytes := bs, passed := true } :: rest → s.xif.mode.active = true →
    let h := Header.parse bs
    let pay := payloadOf bs
    let x := s.unit u
    let y := s.worker w
    let fix := if (byteAt pay 2).toNat = 1 then
        some (BitVec.ofNat 32 (beNat ((pay.drop 3).take 4)), BitVec.ofNat 32 (beNat ((pay.drop 7).take 4)))
      else none
    s.unitOf h.address = some u → h.kindCode = 17 → (h.reportValid = false ∨ x.resync = .running) →
    indexIn 192 (byteAt pay 0).toNat = some w → EmergencyCause.ofNum (byteAt pay 1).toNat = some cause →
    (s.port c).enabled = true → x.reach = .reachable → x.current = some c → x.resync ≠ .wanted →
    (∀ v, (s.worker v).state = .silent → (s.worker v).bound ≠ some x.address) →
    let heard := (s.setPort c { s.port c with rx := rest }).setUnit u { x with
      lastHeard := some s.second, stats := (x.count .framesHeard).stats }
    let withdrawn := match y.state, s.unitNamed y.bound with
      | .prompted, some b => heard.modDue b fun d => { d with prompt := d.prompt.filter fun i => i != w }
      | _, _ => heard
    let detail : EmergencyDetail :=
      { sender := x.address, cause := cause, mismatch := (y.bound != some x.address), before := y.state,
        openPermit := y.openPermit, fix := fix }
    let position := fix.orElse fun _ => y.position
    let emergency : Prop := y.state = .emergency ∨ (y.state = .acknowledged ∧ y.origin = .emergency)
    let noted : State → AlarmNote → State := fun v note =>
      v.modDue u fun d => { d with alarm := insertAlarm w note d.alarm }
    ∃ v : State, exec (.uplinkFrame c) s = .next v.settle ∧
      (¬ emergency → Undisturbed (noted (((withdrawn.setWorker w { y with
        state := .emergency, origin := .emergency, dutyBefore := (y.state != .off), timer := none,
        noteUnit := some x.address, position := position }).raise (.emergency w detail)).writeWorker w) .received) v) ∧
      (emergency →
        let again := (heard.setWorker w { y with noteUnit := some x.address, position := position }).raise
          (.repeated w detail)
        Undisturbed (noted (if position = y.position then again else again.writeWorker w)
          (if y.state = .acknowledged then .acknowledged else .received)) v)

/-- A counter write-back completes in RUNNING and HALTING, when host memory answers: the record's counter field holds the
expected counter before the frame has any effect, the write is no longer in flight, and the frame is taken and reported done
(R118, R150, R59; the order of the two is log 34, and a frame whose live mark is cleared reports nothing, log 13). That the
stray mark alone says whether a crew confirmation comes from the permit's crew, which was tested once, at the checker, is
the model's choice, log 14: one marked stray is reported done and changes nothing else, and what follows is of one not so
marked. A READBACK of an ISSUED permit makes it ACTIVE with step 1 DUE (R119). A STEP_DONE is refused by the first of the
three tests, or makes the step DONE, checks in a worker on the list, whatever its state (R163, Safety.CheckedIn; origin
none: log 52), raises its notice, and moves the permit: to the next step, DUE; from the hold point to HOLDING, with a hold
more on each section, the energising steps with other crews on a section newly held INTERLOCKED and their frames off the
links, and its HELD orders QUEUED; from the last step to CLOSED (R120, R121, R128, R135, R139, R140, R103). A SURRENDER in
HOLDING with every listed worker accounted for makes it SURRENDER_PENDING with source CREW, its orders held and their
unstarted segments withheld, and is refused ALARM_OPEN or STATE otherwise (R123, R98, R103). Steps, notes and outstanding
messages are those of the next state before the pulls that end the step, for a unit that has nothing outstanding while it is
UNKNOWN (Safety.FrameTaken). A STANDDOWN from the note unit or bound unit of a worker in an emergency ends it, and any other
is stray (R166). It is said of a frame behind which none waits. With nothing in flight, or in another mode, a completion is
no event (R153, log 1). -/
def Obligations.CounterWriteBack : Prop :=
  ∀ (s : State) (u : UnitIx) (f : CodedFrame) (p : PermitIx), s.xif.busPlan = [] → MemoryCanonical s →
    let x := s.unit u
    let y := s.permit p
    let going : Prop := (s.xif.mode = .running ∨ s.xif.mode = .halting) ∧ x.inFlight = some f ∧ x.codeQueue = []
    let crew : Prop := going ∧ f.stray = false ∧ indexIn 64 f.permit = some p
    let w := (s.writeCounter u).setUnit u { x with inFlight := none }
    (s.xif.mode ≠ .running → s.xif.mode ≠ .halting → exec (.counterWriteBackComplete u) s = .next s) ∧
    (s.xif.mode = .running ∨ s.xif.mode = .halting → x.inFlight = none →
      exec (.counterWriteBackComplete u) s = .next s.settle) ∧
    (s.xif.mode = .running ∨ s.xif.mode = .halting → x.inFlight = some f → f.kind = .readback → f.stray = false →
      indexIn 64 f.permit = some p → y.state = .issued → x.codeQueue = [] →
      ∃ v : State, exec (.counterWriteBackComplete u) s = .next v.settle ∧
        (s.writeCounter u).fieldBytes .units (64 * u.val + 0x0A) 4 = beBytes 4 x.counter.toNat ∧
        Undisturbed ((((s.writeCounter u).setPermit p { y with state := .active, current := 1 })).setUnit u
          (if f.live then { x with
              inFlight := none, vr := f.ns + 1, awaiting := none, due := { x.due with report := true } }
            else { x with inFlight := none })) v ∧
        (y.steps ≠ [] → (v.permit p).stepState 1 = .due)) ∧
    (crew → f.kind = .readback → y.state ≠ .issued →
      ∃ v, FrameTaken s u f v ∧ CrewRefused w v p .readback .state 0 none) ∧
    (going → f.kind ∈ [.readback, .stepDone, .surrender] → f.stray = true → FrameTaken s u f w) ∧
    (crew → f.kind = .stepDone →
      let k := f.step
      let begun : Prop := y.state = .active ∨ y.state = .restoring
      let withheld : Prop := y.stepState k = .due ∨ y.stepState k = .interlocked
      let accepted : Prop := begun ∧ k = y.current ∧ ¬ withheld
      (¬ begun → ∃ v, FrameTaken s u f v ∧ CrewRefused w v p .stepDone .state k none) ∧
      (begun → k ≠ y.current → ∃ v, FrameTaken s u f v ∧ CrewRefused w v p .stepDone .outOfOrder k none) ∧
      (begun → k = y.current → withheld → ∃ v, FrameTaken s u f v ∧ CrewRefused w v p .stepDone .notSent k none) ∧
      (∀ (given : Bool) (w1 : State), accepted →
        (given = false → (f.worker ∉ y.workers ∨ indexIn 192 f.worker = none) ∧ w1 = w) →
        (given = true → ∃ i, indexIn 192 f.worker = some i ∧ f.worker ∈ y.workers ∧ CheckedIn w w1 i) →
        let told := w1.raise (.stepDone p k f.worker given)
        ((y.state = .active ∧ k ≠ y.h) ∨ (y.state = .restoring ∧ k ≠ y.n) → ∃ v, FrameTaken s u f v ∧
          Undisturbed (told.setPermit p { y with current := k + 1 }) v ∧
          (1 ≤ k → k ≤ y.steps.length → (v.permit p).stepState k = .done) ∧
          (k < y.steps.length → (v.permit p).stepState (k + 1) = .due) ∧
          (∀ j, j ≠ k → j ≠ k + 1 → (v.permit p).step j = y.step j)) ∧
        (y.state = .active → k = y.h → ∃ v, FrameTaken s u f ((v.raise (.holding p y.sections false)).writePermit p) ∧
          OrdersMoved ((told.setPermit p { y with state := .holding }).raiseHolds y.holdSections) v ∧
          (1 ≤ k → k ≤ y.steps.length → (v.permit p).stepState k = .done) ∧
          (∀ n, n < 256 → v.hold n = if n ∈ y.sections then s.hold n + 1 else s.hold n) ∧
          (∀ q st, q ≠ p → (s.permit q).state = .active ∨ (s.permit q).state = .restoring →
            (s.permit q).step (s.permit q).current = some st → st.isEnergising = true → st.state = .sent →
            st.sect ∈ y.sections → s.hold st.sect = 0 →
            (v.permit q).stepState (s.permit q).current = .interlocked ∧
            (AddressesDistinct s → PermitMessagesSound s → ∀ b, ∀ out ∈ (v.unit b).out,
              out.producer ≠ .permitStep q (s.permit q).current)) ∧
          (∀ o, (s.order o).permit = some p.val → (s.order o).state = .held →
            (v.order o).state = .queued ∨ (v.order o).state = .sending)) ∧
        (y.state = .restoring → k = y.n → ∃ v1 v, FrameTaken s u f ((v.raise (.closed p true)).writePermit p) ∧
          Undisturbed (told.setPermit p { y with state := .closed }) v1 ∧ OrdersMoved (v1.unbindAll p) v ∧
          (1 ≤ k → k ≤ y.steps.length → (v.permit p).stepState k = .done) ∧
          (∀ i, i.val ∈ y.workers → (v.worker i).openPermit ≠ some p) ∧ OrdersGone s v p))) ∧
    (crew → f.kind = .surrender →
      (y.state ≠ .holding → ∃ v, FrameTaken s u f v ∧ CrewRefused w v p .surrender .state 0 none) ∧
      (y.state = .holding → SomeoneUnaccounted s y.workers → ∃ v ahead n behind i, FrameTaken s u f v ∧
        y.workers = ahead ++ n :: behind ∧ ¬ SomeoneUnaccounted s ahead ∧ indexIn 192 n = some i ∧
        (s.worker i).state.unaccounted = true ∧
        CrewRefused w v p .surrender .alarmOpen 0 (some (n, (s.worker i).state))) ∧
      (y.state = .holding → ¬ SomeoneUnaccounted s y.workers → ∃ v,
        FrameTaken s u f ((v.raise (.surrenderRequest p false)).writePermit p) ∧
        OrdersMoved (w.setPermit p { y with state := .surrenderPending, source := .crew }) v ∧
        (∀ o, (s.order o).permit = some p.val → (s.order o).state = .queued → (v.order o).state = .held) ∧
        (∀ o b, (s.order o).permit = some p.val → (s.order o).state = .sending → s.unitOf (s.order o).unit = some b →
          ∀ out ∈ (v.unit b).out, ∀ k, out.producer = .orderSegment o k → out.everOnAir = true))) ∧
    (∀ i, going → f.kind = .standdown → indexIn 192 f.worker = some i →
      let z := s.worker i
      let ends : Prop := (z.state = .emergency ∨ (z.state = .acknowledged ∧ z.origin = .emergency)) ∧
        (z.noteUnit = some x.address ∨ z.bound = some x.address)
      let deadline := s.second + z.interval * 60
      let after : WorkerCtx :=
        if z.dutyBefore then { z with
          state := .onDuty, deadline := some deadline, timer := some (deadline - z.lead * 60), origin := .none }
        else { z with state := .off, deadline := none, timer := none, origin := .none }
      (ends → FrameTaken s u f
        (((w.setWorker i after).raise (.standdown i x.address after.state)).writeWorker i)) ∧
      (¬ ends → FrameTaken s u f
        { w with lws := { w.lws with strayStanddowns := satInc s.lws.strayStanddowns } }))

/-! ## Timers of the links and searches -/

/-- The retransmission timer of a unit expires. In RUNNING, with entries outstanding and resync pending NO, the oldest
entry's retry count rises by 1; up to the retry limit every SENT entry is to be sent again, every ON_AIR entry is marked to
be, and go-backs rises; above it a REACHABLE unit is searched for (R67, R83). Otherwise the expiry stops the timer and
nothing else (R73, log 18). While a resync runs it is the reply wait of a RESYNC frame: in RUNNING and FAULTED attempts
rises, up to the retry limit RESYNC is due again, and above it the unit is UNREACHABLE with resync pending WANTED (R71,
R86). The search timer of a SEARCHING unit expires: below probes per site POLL is due and placed on the probe channel
again, and at it the search leaves that channel. The search interval of an UNREACHABLE unit expires: with a port enabled a
search with origin AGAIN probes the first enabled channel of its order, and with none the unit is UNREACHABLE again (R84,
R85, R87, R89). Each is taken at its time or later (log 2); an expiry for a timer that runs for another purpose is no event
(log 1). -/
def Obligations.LinkTimers : Prop :=
  (∀ (s : State) (u : UnitIx) (t0 : Nat), (s.unit u).registered = true → (s.unit u).timer = .running t0 →
    let x := s.unit u
    let s' := s.advanceTo t0
    let stopped := s'.setUnit u { x with timer := .stopped }
    (∀ e es, x.out = e :: es → x.resync = .no → s.xif.mode = .running → e.retries + 1 ≤ s.ule.retryLimit →
      ∃ v : State, exec (.retransmissionTimerExpiry u) s = .next v.settle ∧ Undisturbed s' v ∧
        (v.unit u).timer = .stopped ∧ (v.unit u).out.map OutEntry.seq = x.out.map OutEntry.seq ∧
        (v.unit u).out.map OutEntry.retries = (e.retries + 1) :: es.map OutEntry.retries ∧
        GoneBack (v.unit u) ∧ (v.unit u).stats = (x.count .goBacks).stats) ∧
    (∀ e es, x.out = e :: es → x.resync = .no → s.xif.mode = .running → s.ule.retryLimit < e.retries + 1 →
      x.reach = .reachable →
      ∃ v : State, exec (.retransmissionTimerExpiry u) s = .next v.settle ∧ Undisturbed s' v ∧
        ((v.unit u).reach = .searching ∨ (v.unit u).reach = .unreachable)) ∧
    (x.resync ≠ .running → (s.xif.mode ≠ .running ∨ x.resync ≠ .no ∨ x.out = []) →
      exec (.retransmissionTimerExpiry u) s = .next stopped.settle) ∧
    (x.resync = .running → exec (.retransmissionTimerExpiry u) s = .next s) ∧
    (x.resync = .running → s.xif.mode = .running ∨ s.xif.mode = .faulted → x.resyncAttempts + 1 ≤ s.ule.retryLimit →
      x.reach ≠ .unknown →
      ∃ v : State, exec (.resyncReplyWaitExpiry u) s = .next v.settle ∧ Undisturbed s' v ∧
        (v.unit u).resyncAttempts = x.resyncAttempts + 1 ∧ (v.unit u).due.resync = true ∧
        (v.unit u).timer = .stopped ∧ (v.unit u).resync = .running) ∧
    (x.resync = .running → s.xif.mode = .running ∨ s.xif.mode = .faulted → s.ule.retryLimit < x.resyncAttempts + 1 →
      ∃ v : State, exec (.resyncReplyWaitExpiry u) s = .next v.settle ∧ Undisturbed s' v ∧
        (v.unit u).reach = .unreachable ∧ (v.unit u).resync = .wanted ∧ (v.unit u).out = []) ∧
    (x.resync ≠ .running → exec (.resyncReplyWaitExpiry u) s = .next s)) ∧
  (∀ (s : State) (u : UnitIx) (t0 : Nat), (s.unit u).registered = true → (s.unit u).searchTimer = some t0 →
    s.xif.mode = .running ∨ s.xif.mode = .faulted →
    let x := s.unit u
    let s' := s.advanceTo t0
    (∀ c, x.reach = .searching → x.probe = some c → x.probesSent < s.ule.probesPerSite →
      ∃ v : State, exec (.searchTimerProbeExpiry u) s = .next v.settle ∧ Undisturbed s' v ∧
        (v.unit u).reach = .searching ∧ (v.unit u).probe = some c ∧ (v.unit u).searchTimer = none ∧
        (v.unit u).due.poll = true ∧ (v.unit u).due.placedPoll.map Placed.chan = some c) ∧
    (∀ c, x.reach = .searching → x.probe = some c → s.ule.probesPerSite ≤ x.probesSent →
      ∃ v : State, exec (.searchTimerProbeExpiry u) s = .next v.settle ∧ Undisturbed s' v ∧
        ((v.unit u).reach = .searching ∨ (v.unit u).reach = .unreachable) ∧ (v.unit u).probe ≠ some c) ∧
    (x.reach ≠ .searching → exec (.searchTimerProbeExpiry u) s = .next s) ∧
    (x.reach = .unreachable →
      ∃ v : State, exec (.searchIntervalExpiry u) s = .next v.settle ∧ Undisturbed s' v ∧
        (∀ c, x.searchOrder.find? (fun c => (s.port c).enabled) = some c →
          (v.unit u).reach = .searching ∧ (v.unit u).origin = .again ∧ (v.unit u).probe = some c) ∧
        ((∀ c, (s.port c).enabled = false) → (v.unit u).reach = .unreachable)) ∧
    (x.reach ≠ .unreachable → exec (.searchIntervalExpiry u) s = .next s))

/-! ## Supervision and order timers -/

/-- The prompt time of an ON_DUTY worker: PROMPTED with the timer at the unchanged deadline, the record written, and the
worker in its bound unit's PROMPT request when a context holds that address; no notice (R159, R168). The prompt time is
taken at its time or later, log 2. -/
def Obligations.PromptTime : Prop :=
  ∀ (s : State) (w : WorkerIx) (t0 : Nat),
    let x := s.worker w
    let s' := ((s.advanceTo (t0 * 1000000)).setWorker w { x with state := .prompted, timer := x.deadline }).writeWorker w
    x.state = .onDuty → x.timer = some t0 → x.deadline ≠ some t0 →
    (s.unitNamed x.bound = none → exec (.promptTime w) s = .next s'.settle) ∧
    (∀ u, s.unitNamed x.bound = some u → ∃ v : State, exec (.promptTime w) s = .next v.settle ∧
      Undisturbed (s'.modDue u fun d => { d with prompt := insertWorker w d.prompt }) v)

/-- The deadline of an ON_DUTY or PROMPTED worker: OVERDUE when its unit was heard within the coverage window or the worker
has no grace, else SILENT until deadline plus grace, with the notice and the record; a PROMPTED worker is withdrawn from the
PROMPT request. The grace's end makes a SILENT worker OVERDUE. An OVERDUE worker is ESCALATED at its timer's expiry with
count 1, and an ESCALATED one is escalated again with the count one higher, staying at 255, each time for E minutes, with
its EMERGENCY-class notice and the record, and POLL due to its bound unit (R160, R161, R162). Each is taken at its time or
later, log 2; the notice SILENT gives last heard never when no context holds the unit's address, log 76; the notice ESCALATED
gives no state left, log 30. When a unit is heard, every SILENT worker bound to it is made
OVERDUE, in index order, and no other worker changes (R161): said of the frames that carry no payload, with report-valid
clear, of a REACHABLE unit on its current channel with no resync WANTED. -/
def Obligations.SupervisionExpiries : Prop :=
  (∀ (s : State) (w : WorkerIx) (t0 : Nat), (s.worker w).timer = some t0 →
    let x := s.worker w
    let s1 := s.advanceTo (t0 * 1000000)
    let s2 := match x.state, s.unitNamed x.bound with
      | .prompted, some u => s1.modDue u fun d => { d with prompt := d.prompt.filter fun v => v != w }
      | _, _ => s1
    let heard : Prop := ∃ u n, s.unitNamed x.bound = some u ∧ (s.unit u).lastHeard = some n ∧
      s1.second - n ≤ 60 * s.lws.coverage
    let due : Prop := x.state = .prompted ∨ (x.state = .onDuty ∧ x.deadline = some t0)
    (due → heard ∨ x.grace = 0 → exec (.deadline w) s = .next (enteredOverdue w s2).settle) ∧
    (∀ d, due → ¬ heard → x.grace ≠ 0 → x.deadline = some d → exec (.deadline w) s = .next
      ((((s2.setWorker w { x with state := .silent, timer := some (d + x.grace * 60) }).raise
        (.silent w x.bound ((s.unitNamed x.bound).bind fun u => (s.unit u).lastHeard))).writeWorker w).settle)) ∧
    (x.state = .silent → exec (.graceExpiry w) s = .next (enteredOverdue w s1).settle) ∧
    (x.state = .overdue ∨ x.state = .escalated →
      let count := if x.state = .overdue then 1#8 else if x.escCount = 255#8 then 255#8 else x.escCount + 1
      let s3 := ((s1.setWorker w { x with
        state := .escalated, timer := some (s1.second + x.escalation * 60), escCount := count }).raise
          (.escalated w x.bound x.deadline x.openPermit count)).writeWorker w
      (s.unitNamed x.bound = none → exec (.escalationExpiry w) s = .next s3.settle) ∧
      (∀ u, s.unitNamed x.bound = some u → ∃ v : State, exec (.escalationExpiry w) s = .next v.settle ∧
        Undisturbed s3 v ∧ (v.unit u).due.poll = true))) ∧
  (∀ (s : State) (c : Chan) (bs : List Byte) (rest : List RxFrame) (u : UnitIx),
    (s.port c).rx = { bytes := bs, passed := true } :: rest → s.xif.mode.active = true →
    let h := Header.parse bs
    let x := s.unit u
    s.unitOf h.address = some u → h.kindCode = 23 ∨ h.kindCode = 25 → h.reportValid = false →
    (s.port c).enabled = true → x.reach = .reachable → x.current = some c → x.resync ≠ .wanted →
    exec (.uplinkFrame c) s = .next ((List.finRange 192).foldl
      (fun v i => if (v.worker i).state = .silent ∧ (v.worker i).bound = some x.address then enteredOverdue i v else v)
      ((s.setPort c { s.port c with rx := rest }).setUnit u { x with
        lastHeard := some s.second, stats := (x.count .framesHeard).stats })).settle)

/-- The expiry deadline of a QUEUED or HELD order: it is EXPIRED and leaves its unit's queue, EXPIRED is raised and the
record written, and the start of sending takes the unit's next QUEUED order when it may; an order in another state, a
SENDING one among them, does not expire (R100, R95). The expiry is taken at its time or later, log 2; for an order that
does not wait it is no event, log 1. -/
def Obligations.OrderExpires : Prop :=
  ∀ (s : State) (o : OrderIx) (t0 : Nat),
    let x := s.order o
    let s' := (s.advanceTo (t0 * 1000000)).setOrder o { x with state := .expired }
    x.deadline = some t0 →
    (x.state = .queued ∨ x.state = .held → exec (.orderExpiry o) s =
      .next (((s'.raise (.expired o x.unit x.state)).writeOrder o).startSending x.unit).settle) ∧
    (x.state ≠ .queued → x.state ≠ .held → exec (.orderExpiry o) s = .next s)
end

