-- ==== Sys2Proof/Laws/Memory.lean ====
section
/-! SUPPORT. The laws of host memory: a read after a write, and that every operation keeps the canonical form. -/

namespace Sys2Proof.Machine

/-- What a canonical memory lists at or above an address it may begin with. -/
theorem Memory.read_of_lt {m : Memory} (h : m.wf = true) {a : Nat}
    (lo : ∀ c ∈ m.head?, a < c.1) : m.read a = Memory.unlisted := by
  induction m with
  | nil => rfl
  | cons c rest ih =>
    obtain ⟨k, v⟩ := c
    have hk : a < k := lo (k, v) rfl
    simp only [Memory.read]
    rw [if_neg (by omega)]
    simp only [Memory.wf, Bool.and_eq_true] at h
    refine ih h.2 ?_
    intro d hd
    cases rest with
    | nil => simp at hd
    | cons e rest =>
      simp only [List.head?_cons, Option.mem_def, Option.some.injEq] at hd
      subst hd
      have := h.1.2
      simp only [decide_eq_true_eq] at this
      omega

/-- A byte reads as what was last written to it. -/
theorem Memory.read_write_same {m : Memory} (h : m.wf = true) (a : Nat) (b : Byte) :
    (m.write a b).read a = b := by
  induction m with
  | nil =>
    simp only [Memory.write]
    split
    · simp_all [Memory.read]
    · simp [Memory.read]
  | cons c rest ih =>
    obtain ⟨k, v⟩ := c
    have hr : Memory.wf rest = true := by
      simp only [Memory.wf, Bool.and_eq_true] at h; exact h.2
    have hlt : ∀ d ∈ rest.head?, k < d.1 := by
      intro d hd
      cases rest with
      | nil => simp at hd
      | cons e rest =>
        simp only [List.head?_cons, Option.mem_def, Option.some.injEq] at hd
        subst hd
        simp only [Memory.wf, Bool.and_eq_true, decide_eq_true_eq] at h
        exact h.1.2
    simp only [Memory.write]
    split
    · rename_i hak
      split
      · rename_i hb
        rw [Memory.read_of_lt h, hb]
        intro d hd
        simp only [List.head?_cons, Option.mem_def, Option.some.injEq] at hd
        subst hd; exact hak
      · simp [Memory.read]
    · split
      · rename_i hak
        split
        · rename_i hb
          rw [Memory.read_of_lt hr, hb]
          intro d hd
          have := hlt d hd
          omega
        · simp [Memory.read]
      · rename_i h1 h2
        simp only [Memory.read]
        rw [if_neg (by omega)]
        exact ih hr

/-- A write leaves every other byte as it was. -/
theorem Memory.read_write_other {m : Memory} {a x : Nat} (b : Byte) (hx : x ≠ a) :
    (m.write a b).read x = m.read x := by
  induction m with
  | nil =>
    simp only [Memory.write]
    split
    · rfl
    · simp only [Memory.read]
      rw [if_neg (fun h => hx h.symm)]
  | cons c rest ih =>
    obtain ⟨k, v⟩ := c
    simp only [Memory.write]
    split
    · split
      · rfl
      · simp only [Memory.read]
        rw [if_neg (fun h => hx h.symm)]
    · split
      · rename_i hak
        subst hak
        split
        · simp only [Memory.read]; rw [if_neg (fun h => hx h.symm)]
        · simp only [Memory.read]; rw [if_neg (fun h => hx h.symm), if_neg (fun h => hx h.symm)]
      · simp only [Memory.read]
        rw [ih]

/-- The head of a memory after a write lies no lower than the address written or the old head. -/
theorem Memory.head_write {m : Memory} {a lo : Nat} (b : Byte) (hm : ∀ d ∈ m.head?, lo < d.1) (ha : lo < a)
    (hw : m.wf = true) : ∀ d ∈ (m.write a b).head?, lo < d.1 := by
  cases m with
  | nil =>
    simp only [Memory.write]
    split
    · simp
    · intro d hd; simp at hd; subst hd; exact ha
  | cons c rest =>
    obtain ⟨k, v⟩ := c
    have hk : lo < k := hm (k, v) rfl
    simp only [Memory.write]
    split
    · split <;> (intro d hd; simp at hd; subst hd; assumption)
    · split
      · split
        · intro d hd
          cases rest with
          | nil => simp at hd
          | cons e rest =>
            simp at hd; subst hd
            simp only [Memory.wf, Bool.and_eq_true, decide_eq_true_eq] at hw
            have := hw.1.2
            omega
        · intro d hd; simp at hd; subst hd; exact ha
      · intro d hd; simp at hd; subst hd; exact hk

/-- A cell put before a canonical memory whose addresses lie above it. -/
theorem Memory.wf_cons {k : Nat} {v : Byte} {m : Memory} (hv : v ≠ Memory.unlisted) (hm : m.wf = true)
    (hk : ∀ d ∈ m.head?, k < d.1) : Memory.wf ((k, v) :: m) = true := by
  simp only [Memory.wf, Bool.and_eq_true]
  refine ⟨⟨by simpa using hv, ?_⟩, hm⟩
  cases m with
  | nil => rfl
  | cons e rest => simpa using hk e rfl

/-- What a canonical memory that begins with a cell says of the cell and of the rest. -/
theorem Memory.wf_tail {k : Nat} {v : Byte} {m : Memory} (h : Memory.wf ((k, v) :: m) = true) :
    v ≠ Memory.unlisted ∧ m.wf = true ∧ ∀ d ∈ m.head?, k < d.1 := by
  simp only [Memory.wf, Bool.and_eq_true] at h
  refine ⟨by simpa using h.1.1, h.2, ?_⟩
  intro d hd
  cases m with
  | nil => simp at hd
  | cons e rest =>
    simp only [List.head?_cons, Option.mem_def, Option.some.injEq] at hd
    subst hd
    simpa using h.1.2

/-- A write keeps the canonical form. -/
theorem Memory.wf_write {m : Memory} (h : m.wf = true) (a : Nat) (b : Byte) : (m.write a b).wf = true := by
  induction m with
  | nil =>
    simp only [Memory.write]
    split
    · rfl
    · rename_i hb
      exact Memory.wf_cons hb rfl (by simp)
  | cons c rest ih =>
    obtain ⟨k, v⟩ := c
    obtain ⟨hv, hr, hlt⟩ := Memory.wf_tail h
    simp only [Memory.write]
    split
    · rename_i hak
      split
      · exact h
      · rename_i hb
        exact Memory.wf_cons hb h (by simpa using hak)
    · split
      · rename_i hak
        subst hak
        split
        · exact hr
        · rename_i hb
          exact Memory.wf_cons hb hr hlt
      · rename_i h1 h2
        exact Memory.wf_cons hv (ih hr) (Memory.head_write b hlt (by omega) hr)

/-- Storing bytes keeps the canonical form. -/
theorem Memory.wf_writeBytes {m : Memory} (h : m.wf = true) (a : Nat) (bs : List Byte) :
    (m.writeBytes a bs).wf = true := by
  induction bs generalizing m a with
  | nil => exact h
  | cons b bs ih => exact ih (Memory.wf_write h a b) (a + 1)

/-- Storing bytes leaves every byte outside them as it was. -/
theorem Memory.read_writeBytes_other {m : Memory} {a x : Nat} (bs : List Byte)
    (hx : x < a ∨ a + bs.length ≤ x) : (m.writeBytes a bs).read x = m.read x := by
  induction bs generalizing m a with
  | nil => rfl
  | cons b bs ih =>
    simp only [List.length_cons] at hx
    have hb := Memory.read_write_other (m := m) (a := a) (x := x) b (by omega)
    simp only [Memory.writeBytes]
    rw [ih (by omega), hb]

/-- A byte among those stored reads as stored. -/
theorem Memory.read_writeBytes_at {m : Memory} (h : m.wf = true) (a : Nat) (bs : List Byte) (i : Nat)
    (hi : i < bs.length) : (m.writeBytes a bs).read (a + i) = bs[i] := by
  induction bs generalizing m a i with
  | nil => simp at hi
  | cons b bs ih =>
    simp only [Memory.writeBytes]
    cases i with
    | zero =>
      rw [Nat.add_zero, Memory.read_writeBytes_other bs (by omega)]
      exact Memory.read_write_same h a b
    | succ i =>
      have := ih (Memory.wf_write h a b) (a + 1) i (by simpa using hi)
      simpa [Nat.add_assoc, Nat.add_comm 1 i] using this

/-- Bytes stored read back together. -/
theorem Memory.readBytes_writeBytes {m : Memory} (h : m.wf = true) (a : Nat) (bs : List Byte) :
    (m.writeBytes a bs).readBytes a bs.length = bs := by
  apply List.ext_getElem
  · simp [Memory.readBytes]
  · intro i h1 h2
    simp only [Memory.readBytes, List.getElem_map, List.getElem_range]
    exact Memory.read_writeBytes_at h a bs i h2

/-- The server's stores keep the canonical form. -/
theorem Memory.wf_stores {m : Memory} (h : m.wf = true) (cells : List Host.Cell) : (m.stores cells).wf = true := by
  induction cells generalizing m with
  | nil => exact h
  | cons c cells ih => exact ih (Memory.wf_write h c.1 c.2)

end Sys2Proof.Machine
end

