-- ==== Sys2Proof/Laws/State.lean ====
section
/-! SUPPORT. The laws of the state's updates: what each leaves as it was, field by field, and what it puts in place. -/

namespace Sys2Proof.Machine

variable (s : State)

/-! ### setPort -/

@[simp] theorem State.setPort_pending (c : Chan) (x : Port) : (s.setPort c x).pending = s.pending := rfl
@[simp] theorem State.setPort_mem (c : Chan) (x : Port) : (s.setPort c x).mem = s.mem := rfl
@[simp] theorem State.setPort_xif (c : Chan) (x : Port) : (s.setPort c x).xif = s.xif := rfl
@[simp] theorem State.setPort_offers (c : Chan) (x : Port) : (s.setPort c x).offers = s.offers := rfl
@[simp] theorem State.setPort_ule (c : Chan) (x : Port) : (s.setPort c x).ule = s.ule := rfl
@[simp] theorem State.setPort_units (c : Chan) (x : Port) : (s.setPort c x).units = s.units := rfl
@[simp] theorem State.setPort_odp (c : Chan) (x : Port) : (s.setPort c x).odp = s.odp := rfl
@[simp] theorem State.setPort_orders (c : Chan) (x : Port) : (s.setPort c x).orders = s.orders := rfl
@[simp] theorem State.setPort_pen (c : Chan) (x : Port) : (s.setPort c x).pen = s.pen := rfl
@[simp] theorem State.setPort_permits (c : Chan) (x : Port) : (s.setPort c x).permits = s.permits := rfl
@[simp] theorem State.setPort_holds (c : Chan) (x : Port) : (s.setPort c x).holds = s.holds := rfl
@[simp] theorem State.setPort_lws (c : Chan) (x : Port) : (s.setPort c x).lws = s.lws := rfl
@[simp] theorem State.setPort_workers (c : Chan) (x : Port) : (s.setPort c x).workers = s.workers := rfl
@[simp] theorem State.setPort_freeDraw (c : Chan) (x : Port) : (s.setPort c x).freeDraw = s.freeDraw := rfl
@[simp] theorem State.setPort_offer (c : Chan) (x : Port) (d : Chan) : (s.setPort c x).offer d = s.offer d := rfl
@[simp] theorem State.setPort_unit (c : Chan) (x : Port) (k : UnitIx) : (s.setPort c x).unit k = s.unit k := rfl
@[simp] theorem State.setPort_worker (c : Chan) (x : Port) (k : WorkerIx) : (s.setPort c x).worker k = s.worker k := rfl
@[simp] theorem State.setPort_permit (c : Chan) (x : Port) (k : PermitIx) : (s.setPort c x).permit k = s.permit k := rfl
@[simp] theorem State.setPort_order (c : Chan) (x : Port) (k : OrderIx) : (s.setPort c x).order k = s.order k := rfl
@[simp] theorem State.setPort_hold (c : Chan) (x : Port) (k : Nat) : (s.setPort c x).hold k = s.hold k := rfl

/-! ### setOffer -/

@[simp] theorem State.setOffer_pending (c : Chan) (x : List OfferItem) : (s.setOffer c x).pending = s.pending := rfl
@[simp] theorem State.setOffer_mem (c : Chan) (x : List OfferItem) : (s.setOffer c x).mem = s.mem := rfl
@[simp] theorem State.setOffer_xif (c : Chan) (x : List OfferItem) : (s.setOffer c x).xif = s.xif := rfl
@[simp] theorem State.setOffer_ports (c : Chan) (x : List OfferItem) : (s.setOffer c x).ports = s.ports := rfl
@[simp] theorem State.setOffer_ule (c : Chan) (x : List OfferItem) : (s.setOffer c x).ule = s.ule := rfl
@[simp] theorem State.setOffer_units (c : Chan) (x : List OfferItem) : (s.setOffer c x).units = s.units := rfl
@[simp] theorem State.setOffer_odp (c : Chan) (x : List OfferItem) : (s.setOffer c x).odp = s.odp := rfl
@[simp] theorem State.setOffer_orders (c : Chan) (x : List OfferItem) : (s.setOffer c x).orders = s.orders := rfl
@[simp] theorem State.setOffer_pen (c : Chan) (x : List OfferItem) : (s.setOffer c x).pen = s.pen := rfl
@[simp] theorem State.setOffer_permits (c : Chan) (x : List OfferItem) : (s.setOffer c x).permits = s.permits := rfl
@[simp] theorem State.setOffer_holds (c : Chan) (x : List OfferItem) : (s.setOffer c x).holds = s.holds := rfl
@[simp] theorem State.setOffer_lws (c : Chan) (x : List OfferItem) : (s.setOffer c x).lws = s.lws := rfl
@[simp] theorem State.setOffer_workers (c : Chan) (x : List OfferItem) : (s.setOffer c x).workers = s.workers := rfl
@[simp] theorem State.setOffer_freeDraw (c : Chan) (x : List OfferItem) : (s.setOffer c x).freeDraw = s.freeDraw := rfl
@[simp] theorem State.setOffer_port (c : Chan) (x : List OfferItem) (d : Chan) : (s.setOffer c x).port d = s.port d := rfl
@[simp] theorem State.setOffer_unit (c : Chan) (x : List OfferItem) (k : UnitIx) : (s.setOffer c x).unit k = s.unit k := rfl
@[simp] theorem State.setOffer_worker (c : Chan) (x : List OfferItem) (k : WorkerIx) : (s.setOffer c x).worker k = s.worker k := rfl
@[simp] theorem State.setOffer_permit (c : Chan) (x : List OfferItem) (k : PermitIx) : (s.setOffer c x).permit k = s.permit k := rfl
@[simp] theorem State.setOffer_order (c : Chan) (x : List OfferItem) (k : OrderIx) : (s.setOffer c x).order k = s.order k := rfl
@[simp] theorem State.setOffer_hold (c : Chan) (x : List OfferItem) (k : Nat) : (s.setOffer c x).hold k = s.hold k := rfl

/-! ### setUnit -/

@[simp] theorem State.setUnit_pending (u : UnitIx) (x : UnitCtx) : (s.setUnit u x).pending = s.pending := rfl
@[simp] theorem State.setUnit_mem (u : UnitIx) (x : UnitCtx) : (s.setUnit u x).mem = s.mem := rfl
@[simp] theorem State.setUnit_xif (u : UnitIx) (x : UnitCtx) : (s.setUnit u x).xif = s.xif := rfl
@[simp] theorem State.setUnit_ports (u : UnitIx) (x : UnitCtx) : (s.setUnit u x).ports = s.ports := rfl
@[simp] theorem State.setUnit_offers (u : UnitIx) (x : UnitCtx) : (s.setUnit u x).offers = s.offers := rfl
@[simp] theorem State.setUnit_ule (u : UnitIx) (x : UnitCtx) : (s.setUnit u x).ule = s.ule := rfl
@[simp] theorem State.setUnit_odp (u : UnitIx) (x : UnitCtx) : (s.setUnit u x).odp = s.odp := rfl
@[simp] theorem State.setUnit_orders (u : UnitIx) (x : UnitCtx) : (s.setUnit u x).orders = s.orders := rfl
@[simp] theorem State.setUnit_pen (u : UnitIx) (x : UnitCtx) : (s.setUnit u x).pen = s.pen := rfl
@[simp] theorem State.setUnit_permits (u : UnitIx) (x : UnitCtx) : (s.setUnit u x).permits = s.permits := rfl
@[simp] theorem State.setUnit_holds (u : UnitIx) (x : UnitCtx) : (s.setUnit u x).holds = s.holds := rfl
@[simp] theorem State.setUnit_lws (u : UnitIx) (x : UnitCtx) : (s.setUnit u x).lws = s.lws := rfl
@[simp] theorem State.setUnit_workers (u : UnitIx) (x : UnitCtx) : (s.setUnit u x).workers = s.workers := rfl
@[simp] theorem State.setUnit_freeDraw (u : UnitIx) (x : UnitCtx) : (s.setUnit u x).freeDraw = s.freeDraw := rfl
@[simp] theorem State.setUnit_port (u : UnitIx) (x : UnitCtx) (d : Chan) : (s.setUnit u x).port d = s.port d := rfl
@[simp] theorem State.setUnit_offer (u : UnitIx) (x : UnitCtx) (d : Chan) : (s.setUnit u x).offer d = s.offer d := rfl
@[simp] theorem State.setUnit_worker (u : UnitIx) (x : UnitCtx) (k : WorkerIx) : (s.setUnit u x).worker k = s.worker k := rfl
@[simp] theorem State.setUnit_permit (u : UnitIx) (x : UnitCtx) (k : PermitIx) : (s.setUnit u x).permit k = s.permit k := rfl
@[simp] theorem State.setUnit_order (u : UnitIx) (x : UnitCtx) (k : OrderIx) : (s.setUnit u x).order k = s.order k := rfl
@[simp] theorem State.setUnit_hold (u : UnitIx) (x : UnitCtx) (k : Nat) : (s.setUnit u x).hold k = s.hold k := rfl

/-! ### setWorker -/

@[simp] theorem State.setWorker_pending (u : WorkerIx) (x : WorkerCtx) : (s.setWorker u x).pending = s.pending := rfl
@[simp] theorem State.setWorker_mem (u : WorkerIx) (x : WorkerCtx) : (s.setWorker u x).mem = s.mem := rfl
@[simp] theorem State.setWorker_xif (u : WorkerIx) (x : WorkerCtx) : (s.setWorker u x).xif = s.xif := rfl
@[simp] theorem State.setWorker_ports (u : WorkerIx) (x : WorkerCtx) : (s.setWorker u x).ports = s.ports := rfl
@[simp] theorem State.setWorker_offers (u : WorkerIx) (x : WorkerCtx) : (s.setWorker u x).offers = s.offers := rfl
@[simp] theorem State.setWorker_ule (u : WorkerIx) (x : WorkerCtx) : (s.setWorker u x).ule = s.ule := rfl
@[simp] theorem State.setWorker_units (u : WorkerIx) (x : WorkerCtx) : (s.setWorker u x).units = s.units := rfl
@[simp] theorem State.setWorker_odp (u : WorkerIx) (x : WorkerCtx) : (s.setWorker u x).odp = s.odp := rfl
@[simp] theorem State.setWorker_orders (u : WorkerIx) (x : WorkerCtx) : (s.setWorker u x).orders = s.orders := rfl
@[simp] theorem State.setWorker_pen (u : WorkerIx) (x : WorkerCtx) : (s.setWorker u x).pen = s.pen := rfl
@[simp] theorem State.setWorker_permits (u : WorkerIx) (x : WorkerCtx) : (s.setWorker u x).permits = s.permits := rfl
@[simp] theorem State.setWorker_holds (u : WorkerIx) (x : WorkerCtx) : (s.setWorker u x).holds = s.holds := rfl
@[simp] theorem State.setWorker_lws (u : WorkerIx) (x : WorkerCtx) : (s.setWorker u x).lws = s.lws := rfl
@[simp] theorem State.setWorker_freeDraw (u : WorkerIx) (x : WorkerCtx) : (s.setWorker u x).freeDraw = s.freeDraw := rfl
@[simp] theorem State.setWorker_port (u : WorkerIx) (x : WorkerCtx) (d : Chan) : (s.setWorker u x).port d = s.port d := rfl
@[simp] theorem State.setWorker_offer (u : WorkerIx) (x : WorkerCtx) (d : Chan) : (s.setWorker u x).offer d = s.offer d := rfl
@[simp] theorem State.setWorker_unit (u : WorkerIx) (x : WorkerCtx) (k : UnitIx) : (s.setWorker u x).unit k = s.unit k := rfl
@[simp] theorem State.setWorker_permit (u : WorkerIx) (x : WorkerCtx) (k : PermitIx) : (s.setWorker u x).permit k = s.permit k := rfl
@[simp] theorem State.setWorker_order (u : WorkerIx) (x : WorkerCtx) (k : OrderIx) : (s.setWorker u x).order k = s.order k := rfl
@[simp] theorem State.setWorker_hold (u : WorkerIx) (x : WorkerCtx) (k : Nat) : (s.setWorker u x).hold k = s.hold k := rfl

/-! ### setPermit -/

@[simp] theorem State.setPermit_pending (u : PermitIx) (x : PermitCtx) : (s.setPermit u x).pending = s.pending := rfl
@[simp] theorem State.setPermit_mem (u : PermitIx) (x : PermitCtx) : (s.setPermit u x).mem = s.mem := rfl
@[simp] theorem State.setPermit_xif (u : PermitIx) (x : PermitCtx) : (s.setPermit u x).xif = s.xif := rfl
@[simp] theorem State.setPermit_ports (u : PermitIx) (x : PermitCtx) : (s.setPermit u x).ports = s.ports := rfl
@[simp] theorem State.setPermit_offers (u : PermitIx) (x : PermitCtx) : (s.setPermit u x).offers = s.offers := rfl
@[simp] theorem State.setPermit_ule (u : PermitIx) (x : PermitCtx) : (s.setPermit u x).ule = s.ule := rfl
@[simp] theorem State.setPermit_units (u : PermitIx) (x : PermitCtx) : (s.setPermit u x).units = s.units := rfl
@[simp] theorem State.setPermit_odp (u : PermitIx) (x : PermitCtx) : (s.setPermit u x).odp = s.odp := rfl
@[simp] theorem State.setPermit_orders (u : PermitIx) (x : PermitCtx) : (s.setPermit u x).orders = s.orders := rfl
@[simp] theorem State.setPermit_pen (u : PermitIx) (x : PermitCtx) : (s.setPermit u x).pen = s.pen := rfl
@[simp] theorem State.setPermit_holds (u : PermitIx) (x : PermitCtx) : (s.setPermit u x).holds = s.holds := rfl
@[simp] theorem State.setPermit_lws (u : PermitIx) (x : PermitCtx) : (s.setPermit u x).lws = s.lws := rfl
@[simp] theorem State.setPermit_workers (u : PermitIx) (x : PermitCtx) : (s.setPermit u x).workers = s.workers := rfl
@[simp] theorem State.setPermit_freeDraw (u : PermitIx) (x : PermitCtx) : (s.setPermit u x).freeDraw = s.freeDraw := rfl
@[simp] theorem State.setPermit_port (u : PermitIx) (x : PermitCtx) (d : Chan) : (s.setPermit u x).port d = s.port d := rfl
@[simp] theorem State.setPermit_offer (u : PermitIx) (x : PermitCtx) (d : Chan) : (s.setPermit u x).offer d = s.offer d := rfl
@[simp] theorem State.setPermit_unit (u : PermitIx) (x : PermitCtx) (k : UnitIx) : (s.setPermit u x).unit k = s.unit k := rfl
@[simp] theorem State.setPermit_worker (u : PermitIx) (x : PermitCtx) (k : WorkerIx) : (s.setPermit u x).worker k = s.worker k := rfl
@[simp] theorem State.setPermit_order (u : PermitIx) (x : PermitCtx) (k : OrderIx) : (s.setPermit u x).order k = s.order k := rfl
@[simp] theorem State.setPermit_hold (u : PermitIx) (x : PermitCtx) (k : Nat) : (s.setPermit u x).hold k = s.hold k := rfl

/-! ### setOrder -/

@[simp] theorem State.setOrder_pending (u : OrderIx) (x : OrderCtx) : (s.setOrder u x).pending = s.pending := rfl
@[simp] theorem State.setOrder_mem (u : OrderIx) (x : OrderCtx) : (s.setOrder u x).mem = s.mem := rfl
@[simp] theorem State.setOrder_xif (u : OrderIx) (x : OrderCtx) : (s.setOrder u x).xif = s.xif := rfl
@[simp] theorem State.setOrder_ports (u : OrderIx) (x : OrderCtx) : (s.setOrder u x).ports = s.ports := rfl
@[simp] theorem State.setOrder_offers (u : OrderIx) (x : OrderCtx) : (s.setOrder u x).offers = s.offers := rfl
@[simp] theorem State.setOrder_ule (u : OrderIx) (x : OrderCtx) : (s.setOrder u x).ule = s.ule := rfl
@[simp] theorem State.setOrder_units (u : OrderIx) (x : OrderCtx) : (s.setOrder u x).units = s.units := rfl
@[simp] theorem State.setOrder_odp (u : OrderIx) (x : OrderCtx) : (s.setOrder u x).odp = s.odp := rfl
@[simp] theorem State.setOrder_pen (u : OrderIx) (x : OrderCtx) : (s.setOrder u x).pen = s.pen := rfl
@[simp] theorem State.setOrder_permits (u : OrderIx) (x : OrderCtx) : (s.setOrder u x).permits = s.permits := rfl
@[simp] theorem State.setOrder_holds (u : OrderIx) (x : OrderCtx) : (s.setOrder u x).holds = s.holds := rfl
@[simp] theorem State.setOrder_lws (u : OrderIx) (x : OrderCtx) : (s.setOrder u x).lws = s.lws := rfl
@[simp] theorem State.setOrder_workers (u : OrderIx) (x : OrderCtx) : (s.setOrder u x).workers = s.workers := rfl
@[simp] theorem State.setOrder_freeDraw (u : OrderIx) (x : OrderCtx) : (s.setOrder u x).freeDraw = s.freeDraw := rfl
@[simp] theorem State.setOrder_port (u : OrderIx) (x : OrderCtx) (d : Chan) : (s.setOrder u x).port d = s.port d := rfl
@[simp] theorem State.setOrder_offer (u : OrderIx) (x : OrderCtx) (d : Chan) : (s.setOrder u x).offer d = s.offer d := rfl
@[simp] theorem State.setOrder_unit (u : OrderIx) (x : OrderCtx) (k : UnitIx) : (s.setOrder u x).unit k = s.unit k := rfl
@[simp] theorem State.setOrder_worker (u : OrderIx) (x : OrderCtx) (k : WorkerIx) : (s.setOrder u x).worker k = s.worker k := rfl
@[simp] theorem State.setOrder_permit (u : OrderIx) (x : OrderCtx) (k : PermitIx) : (s.setOrder u x).permit k = s.permit k := rfl
@[simp] theorem State.setOrder_hold (u : OrderIx) (x : OrderCtx) (k : Nat) : (s.setOrder u x).hold k = s.hold k := rfl

/-! ### setHold -/

@[simp] theorem State.setHold_pending (u n : Nat) : (s.setHold u n).pending = s.pending := by unfold State.setHold; split <;> rfl
@[simp] theorem State.setHold_mem (u n : Nat) : (s.setHold u n).mem = s.mem := by unfold State.setHold; split <;> rfl
@[simp] theorem State.setHold_xif (u n : Nat) : (s.setHold u n).xif = s.xif := by unfold State.setHold; split <;> rfl
@[simp] theorem State.setHold_ports (u n : Nat) : (s.setHold u n).ports = s.ports := by unfold State.setHold; split <;> rfl
@[simp] theorem State.setHold_offers (u n : Nat) : (s.setHold u n).offers = s.offers := by unfold State.setHold; split <;> rfl
@[simp] theorem State.setHold_ule (u n : Nat) : (s.setHold u n).ule = s.ule := by unfold State.setHold; split <;> rfl
@[simp] theorem State.setHold_units (u n : Nat) : (s.setHold u n).units = s.units := by unfold State.setHold; split <;> rfl
@[simp] theorem State.setHold_odp (u n : Nat) : (s.setHold u n).odp = s.odp := by unfold State.setHold; split <;> rfl
@[simp] theorem State.setHold_orders (u n : Nat) : (s.setHold u n).orders = s.orders := by unfold State.setHold; split <;> rfl
@[simp] theorem State.setHold_pen (u n : Nat) : (s.setHold u n).pen = s.pen := by unfold State.setHold; split <;> rfl
@[simp] theorem State.setHold_permits (u n : Nat) : (s.setHold u n).permits = s.permits := by unfold State.setHold; split <;> rfl
@[simp] theorem State.setHold_lws (u n : Nat) : (s.setHold u n).lws = s.lws := by unfold State.setHold; split <;> rfl
@[simp] theorem State.setHold_workers (u n : Nat) : (s.setHold u n).workers = s.workers := by unfold State.setHold; split <;> rfl
@[simp] theorem State.setHold_freeDraw (u n : Nat) : (s.setHold u n).freeDraw = s.freeDraw := by unfold State.setHold; split <;> rfl
@[simp] theorem State.setHold_port (u n : Nat) (d : Chan) : (s.setHold u n).port d = s.port d := by unfold State.setHold; split <;> rfl
@[simp] theorem State.setHold_offer (u n : Nat) (d : Chan) : (s.setHold u n).offer d = s.offer d := by unfold State.setHold; split <;> rfl
@[simp] theorem State.setHold_unit (u n : Nat) (k : UnitIx) : (s.setHold u n).unit k = s.unit k := by unfold State.setHold; split <;> rfl
@[simp] theorem State.setHold_worker (u n : Nat) (k : WorkerIx) : (s.setHold u n).worker k = s.worker k := by unfold State.setHold; split <;> rfl
@[simp] theorem State.setHold_permit (u n : Nat) (k : PermitIx) : (s.setHold u n).permit k = s.permit k := by unfold State.setHold; split <;> rfl
@[simp] theorem State.setHold_order (u n : Nat) (k : OrderIx) : (s.setHold u n).order k = s.order k := by unfold State.setHold; split <;> rfl

/-! ### setXif -/

@[simp] theorem State.setXif_pending (x : Xif) : (s.setXif x).pending = s.pending := rfl
@[simp] theorem State.setXif_mem (x : Xif) : (s.setXif x).mem = s.mem := rfl
@[simp] theorem State.setXif_ports (x : Xif) : (s.setXif x).ports = s.ports := rfl
@[simp] theorem State.setXif_offers (x : Xif) : (s.setXif x).offers = s.offers := rfl
@[simp] theorem State.setXif_ule (x : Xif) : (s.setXif x).ule = s.ule := rfl
@[simp] theorem State.setXif_units (x : Xif) : (s.setXif x).units = s.units := rfl
@[simp] theorem State.setXif_odp (x : Xif) : (s.setXif x).odp = s.odp := rfl
@[simp] theorem State.setXif_orders (x : Xif) : (s.setXif x).orders = s.orders := rfl
@[simp] theorem State.setXif_pen (x : Xif) : (s.setXif x).pen = s.pen := rfl
@[simp] theorem State.setXif_permits (x : Xif) : (s.setXif x).permits = s.permits := rfl
@[simp] theorem State.setXif_holds (x : Xif) : (s.setXif x).holds = s.holds := rfl
@[simp] theorem State.setXif_lws (x : Xif) : (s.setXif x).lws = s.lws := rfl
@[simp] theorem State.setXif_workers (x : Xif) : (s.setXif x).workers = s.workers := rfl
@[simp] theorem State.setXif_freeDraw (x : Xif) : (s.setXif x).freeDraw = s.freeDraw := rfl
@[simp] theorem State.setXif_port (x : Xif) (d : Chan) : (s.setXif x).port d = s.port d := rfl
@[simp] theorem State.setXif_offer (x : Xif) (d : Chan) : (s.setXif x).offer d = s.offer d := rfl
@[simp] theorem State.setXif_unit (x : Xif) (k : UnitIx) : (s.setXif x).unit k = s.unit k := rfl
@[simp] theorem State.setXif_worker (x : Xif) (k : WorkerIx) : (s.setXif x).worker k = s.worker k := rfl
@[simp] theorem State.setXif_permit (x : Xif) (k : PermitIx) : (s.setXif x).permit k = s.permit k := rfl
@[simp] theorem State.setXif_order (x : Xif) (k : OrderIx) : (s.setXif x).order k = s.order k := rfl
@[simp] theorem State.setXif_hold (x : Xif) (k : Nat) : (s.setXif x).hold k = s.hold k := rfl

/-! ### setMem -/

@[simp] theorem State.setMem_pending (m : Memory) : (s.setMem m).pending = s.pending := rfl
@[simp] theorem State.setMem_xif (m : Memory) : (s.setMem m).xif = s.xif := rfl
@[simp] theorem State.setMem_ports (m : Memory) : (s.setMem m).ports = s.ports := rfl
@[simp] theorem State.setMem_offers (m : Memory) : (s.setMem m).offers = s.offers := rfl
@[simp] theorem State.setMem_ule (m : Memory) : (s.setMem m).ule = s.ule := rfl
@[simp] theorem State.setMem_units (m : Memory) : (s.setMem m).units = s.units := rfl
@[simp] theorem State.setMem_odp (m : Memory) : (s.setMem m).odp = s.odp := rfl
@[simp] theorem State.setMem_orders (m : Memory) : (s.setMem m).orders = s.orders := rfl
@[simp] theorem State.setMem_pen (m : Memory) : (s.setMem m).pen = s.pen := rfl
@[simp] theorem State.setMem_permits (m : Memory) : (s.setMem m).permits = s.permits := rfl
@[simp] theorem State.setMem_holds (m : Memory) : (s.setMem m).holds = s.holds := rfl
@[simp] theorem State.setMem_lws (m : Memory) : (s.setMem m).lws = s.lws := rfl
@[simp] theorem State.setMem_workers (m : Memory) : (s.setMem m).workers = s.workers := rfl
@[simp] theorem State.setMem_freeDraw (m : Memory) : (s.setMem m).freeDraw = s.freeDraw := rfl
@[simp] theorem State.setMem_port (m : Memory) (d : Chan) : (s.setMem m).port d = s.port d := rfl
@[simp] theorem State.setMem_offer (m : Memory) (d : Chan) : (s.setMem m).offer d = s.offer d := rfl
@[simp] theorem State.setMem_unit (m : Memory) (k : UnitIx) : (s.setMem m).unit k = s.unit k := rfl
@[simp] theorem State.setMem_worker (m : Memory) (k : WorkerIx) : (s.setMem m).worker k = s.worker k := rfl
@[simp] theorem State.setMem_permit (m : Memory) (k : PermitIx) : (s.setMem m).permit k = s.permit k := rfl
@[simp] theorem State.setMem_order (m : Memory) (k : OrderIx) : (s.setMem m).order k = s.order k := rfl
@[simp] theorem State.setMem_hold (m : Memory) (k : Nat) : (s.setMem m).hold k = s.hold k := rfl

/-! ### modPort -/

@[simp] theorem State.modPort_pending (c : Chan) (f : Port → Port) : (s.modPort c f).pending = s.pending := rfl
@[simp] theorem State.modPort_mem (c : Chan) (f : Port → Port) : (s.modPort c f).mem = s.mem := rfl
@[simp] theorem State.modPort_xif (c : Chan) (f : Port → Port) : (s.modPort c f).xif = s.xif := rfl
@[simp] theorem State.modPort_offers (c : Chan) (f : Port → Port) : (s.modPort c f).offers = s.offers := rfl
@[simp] theorem State.modPort_ule (c : Chan) (f : Port → Port) : (s.modPort c f).ule = s.ule := rfl
@[simp] theorem State.modPort_units (c : Chan) (f : Port → Port) : (s.modPort c f).units = s.units := rfl
@[simp] theorem State.modPort_odp (c : Chan) (f : Port → Port) : (s.modPort c f).odp = s.odp := rfl
@[simp] theorem State.modPort_orders (c : Chan) (f : Port → Port) : (s.modPort c f).orders = s.orders := rfl
@[simp] theorem State.modPort_pen (c : Chan) (f : Port → Port) : (s.modPort c f).pen = s.pen := rfl
@[simp] theorem State.modPort_permits (c : Chan) (f : Port → Port) : (s.modPort c f).permits = s.permits := rfl
@[simp] theorem State.modPort_holds (c : Chan) (f : Port → Port) : (s.modPort c f).holds = s.holds := rfl
@[simp] theorem State.modPort_lws (c : Chan) (f : Port → Port) : (s.modPort c f).lws = s.lws := rfl
@[simp] theorem State.modPort_workers (c : Chan) (f : Port → Port) : (s.modPort c f).workers = s.workers := rfl
@[simp] theorem State.modPort_freeDraw (c : Chan) (f : Port → Port) : (s.modPort c f).freeDraw = s.freeDraw := rfl
@[simp] theorem State.modPort_offer (c : Chan) (f : Port → Port) (d : Chan) : (s.modPort c f).offer d = s.offer d := rfl
@[simp] theorem State.modPort_unit (c : Chan) (f : Port → Port) (k : UnitIx) : (s.modPort c f).unit k = s.unit k := rfl
@[simp] theorem State.modPort_worker (c : Chan) (f : Port → Port) (k : WorkerIx) : (s.modPort c f).worker k = s.worker k := rfl
@[simp] theorem State.modPort_permit (c : Chan) (f : Port → Port) (k : PermitIx) : (s.modPort c f).permit k = s.permit k := rfl
@[simp] theorem State.modPort_order (c : Chan) (f : Port → Port) (k : OrderIx) : (s.modPort c f).order k = s.order k := rfl
@[simp] theorem State.modPort_hold (c : Chan) (f : Port → Port) (k : Nat) : (s.modPort c f).hold k = s.hold k := rfl

/-! ### modUnit -/

@[simp] theorem State.modUnit_pending (u : UnitIx) (f : UnitCtx → UnitCtx) : (s.modUnit u f).pending = s.pending := rfl
@[simp] theorem State.modUnit_mem (u : UnitIx) (f : UnitCtx → UnitCtx) : (s.modUnit u f).mem = s.mem := rfl
@[simp] theorem State.modUnit_xif (u : UnitIx) (f : UnitCtx → UnitCtx) : (s.modUnit u f).xif = s.xif := rfl
@[simp] theorem State.modUnit_ports (u : UnitIx) (f : UnitCtx → UnitCtx) : (s.modUnit u f).ports = s.ports := rfl
@[simp] theorem State.modUnit_offers (u : UnitIx) (f : UnitCtx → UnitCtx) : (s.modUnit u f).offers = s.offers := rfl
@[simp] theorem State.modUnit_ule (u : UnitIx) (f : UnitCtx → UnitCtx) : (s.modUnit u f).ule = s.ule := rfl
@[simp] theorem State.modUnit_odp (u : UnitIx) (f : UnitCtx → UnitCtx) : (s.modUnit u f).odp = s.odp := rfl
@[simp] theorem State.modUnit_orders (u : UnitIx) (f : UnitCtx → UnitCtx) : (s.modUnit u f).orders = s.orders := rfl
@[simp] theorem State.modUnit_pen (u : UnitIx) (f : UnitCtx → UnitCtx) : (s.modUnit u f).pen = s.pen := rfl
@[simp] theorem State.modUnit_permits (u : UnitIx) (f : UnitCtx → UnitCtx) : (s.modUnit u f).permits = s.permits := rfl
@[simp] theorem State.modUnit_holds (u : UnitIx) (f : UnitCtx → UnitCtx) : (s.modUnit u f).holds = s.holds := rfl
@[simp] theorem State.modUnit_lws (u : UnitIx) (f : UnitCtx → UnitCtx) : (s.modUnit u f).lws = s.lws := rfl
@[simp] theorem State.modUnit_workers (u : UnitIx) (f : UnitCtx → UnitCtx) : (s.modUnit u f).workers = s.workers := rfl
@[simp] theorem State.modUnit_freeDraw (u : UnitIx) (f : UnitCtx → UnitCtx) : (s.modUnit u f).freeDraw = s.freeDraw := rfl
@[simp] theorem State.modUnit_port (u : UnitIx) (f : UnitCtx → UnitCtx) (d : Chan) : (s.modUnit u f).port d = s.port d := rfl
@[simp] theorem State.modUnit_offer (u : UnitIx) (f : UnitCtx → UnitCtx) (d : Chan) : (s.modUnit u f).offer d = s.offer d := rfl
@[simp] theorem State.modUnit_worker (u : UnitIx) (f : UnitCtx → UnitCtx) (k : WorkerIx) : (s.modUnit u f).worker k = s.worker k := rfl
@[simp] theorem State.modUnit_permit (u : UnitIx) (f : UnitCtx → UnitCtx) (k : PermitIx) : (s.modUnit u f).permit k = s.permit k := rfl
@[simp] theorem State.modUnit_order (u : UnitIx) (f : UnitCtx → UnitCtx) (k : OrderIx) : (s.modUnit u f).order k = s.order k := rfl
@[simp] theorem State.modUnit_hold (u : UnitIx) (f : UnitCtx → UnitCtx) (k : Nat) : (s.modUnit u f).hold k = s.hold k := rfl

/-! ### modWorker -/

@[simp] theorem State.modWorker_pending (u : WorkerIx) (f : WorkerCtx → WorkerCtx) : (s.modWorker u f).pending = s.pending := rfl
@[simp] theorem State.modWorker_mem (u : WorkerIx) (f : WorkerCtx → WorkerCtx) : (s.modWorker u f).mem = s.mem := rfl
@[simp] theorem State.modWorker_xif (u : WorkerIx) (f : WorkerCtx → WorkerCtx) : (s.modWorker u f).xif = s.xif := rfl
@[simp] theorem State.modWorker_ports (u : WorkerIx) (f : WorkerCtx → WorkerCtx) : (s.modWorker u f).ports = s.ports := rfl
@[simp] theorem State.modWorker_offers (u : WorkerIx) (f : WorkerCtx → WorkerCtx) : (s.modWorker u f).offers = s.offers := rfl
@[simp] theorem State.modWorker_ule (u : WorkerIx) (f : WorkerCtx → WorkerCtx) : (s.modWorker u f).ule = s.ule := rfl
@[simp] theorem State.modWorker_units (u : WorkerIx) (f : WorkerCtx → WorkerCtx) : (s.modWorker u f).units = s.units := rfl
@[simp] theorem State.modWorker_odp (u : WorkerIx) (f : WorkerCtx → WorkerCtx) : (s.modWorker u f).odp = s.odp := rfl
@[simp] theorem State.modWorker_orders (u : WorkerIx) (f : WorkerCtx → WorkerCtx) : (s.modWorker u f).orders = s.orders := rfl
@[simp] theorem State.modWorker_pen (u : WorkerIx) (f : WorkerCtx → WorkerCtx) : (s.modWorker u f).pen = s.pen := rfl
@[simp] theorem State.modWorker_permits (u : WorkerIx) (f : WorkerCtx → WorkerCtx) : (s.modWorker u f).permits = s.permits := rfl
@[simp] theorem State.modWorker_holds (u : WorkerIx) (f : WorkerCtx → WorkerCtx) : (s.modWorker u f).holds = s.holds := rfl
@[simp] theorem State.modWorker_lws (u : WorkerIx) (f : WorkerCtx → WorkerCtx) : (s.modWorker u f).lws = s.lws := rfl
@[simp] theorem State.modWorker_freeDraw (u : WorkerIx) (f : WorkerCtx → WorkerCtx) : (s.modWorker u f).freeDraw = s.freeDraw := rfl
@[simp] theorem State.modWorker_port (u : WorkerIx) (f : WorkerCtx → WorkerCtx) (d : Chan) : (s.modWorker u f).port d = s.port d := rfl
@[simp] theorem State.modWorker_offer (u : WorkerIx) (f : WorkerCtx → WorkerCtx) (d : Chan) : (s.modWorker u f).offer d = s.offer d := rfl
@[simp] theorem State.modWorker_unit (u : WorkerIx) (f : WorkerCtx → WorkerCtx) (k : UnitIx) : (s.modWorker u f).unit k = s.unit k := rfl
@[simp] theorem State.modWorker_permit (u : WorkerIx) (f : WorkerCtx → WorkerCtx) (k : PermitIx) : (s.modWorker u f).permit k = s.permit k := rfl
@[simp] theorem State.modWorker_order (u : WorkerIx) (f : WorkerCtx → WorkerCtx) (k : OrderIx) : (s.modWorker u f).order k = s.order k := rfl
@[simp] theorem State.modWorker_hold (u : WorkerIx) (f : WorkerCtx → WorkerCtx) (k : Nat) : (s.modWorker u f).hold k = s.hold k := rfl

/-! ### modOrder -/

@[simp] theorem State.modOrder_pending (u : OrderIx) (f : OrderCtx → OrderCtx) : (s.modOrder u f).pending = s.pending := rfl
@[simp] theorem State.modOrder_mem (u : OrderIx) (f : OrderCtx → OrderCtx) : (s.modOrder u f).mem = s.mem := rfl
@[simp] theorem State.modOrder_xif (u : OrderIx) (f : OrderCtx → OrderCtx) : (s.modOrder u f).xif = s.xif := rfl
@[simp] theorem State.modOrder_ports (u : OrderIx) (f : OrderCtx → OrderCtx) : (s.modOrder u f).ports = s.ports := rfl
@[simp] theorem State.modOrder_offers (u : OrderIx) (f : OrderCtx → OrderCtx) : (s.modOrder u f).offers = s.offers := rfl
@[simp] theorem State.modOrder_ule (u : OrderIx) (f : OrderCtx → OrderCtx) : (s.modOrder u f).ule = s.ule := rfl
@[simp] theorem State.modOrder_units (u : OrderIx) (f : OrderCtx → OrderCtx) : (s.modOrder u f).units = s.units := rfl
@[simp] theorem State.modOrder_odp (u : OrderIx) (f : OrderCtx → OrderCtx) : (s.modOrder u f).odp = s.odp := rfl
@[simp] theorem State.modOrder_pen (u : OrderIx) (f : OrderCtx → OrderCtx) : (s.modOrder u f).pen = s.pen := rfl
@[simp] theorem State.modOrder_permits (u : OrderIx) (f : OrderCtx → OrderCtx) : (s.modOrder u f).permits = s.permits := rfl
@[simp] theorem State.modOrder_holds (u : OrderIx) (f : OrderCtx → OrderCtx) : (s.modOrder u f).holds = s.holds := rfl
@[simp] theorem State.modOrder_lws (u : OrderIx) (f : OrderCtx → OrderCtx) : (s.modOrder u f).lws = s.lws := rfl
@[simp] theorem State.modOrder_workers (u : OrderIx) (f : OrderCtx → OrderCtx) : (s.modOrder u f).workers = s.workers := rfl
@[simp] theorem State.modOrder_freeDraw (u : OrderIx) (f : OrderCtx → OrderCtx) : (s.modOrder u f).freeDraw = s.freeDraw := rfl
@[simp] theorem State.modOrder_port (u : OrderIx) (f : OrderCtx → OrderCtx) (d : Chan) : (s.modOrder u f).port d = s.port d := rfl
@[simp] theorem State.modOrder_offer (u : OrderIx) (f : OrderCtx → OrderCtx) (d : Chan) : (s.modOrder u f).offer d = s.offer d := rfl
@[simp] theorem State.modOrder_unit (u : OrderIx) (f : OrderCtx → OrderCtx) (k : UnitIx) : (s.modOrder u f).unit k = s.unit k := rfl
@[simp] theorem State.modOrder_worker (u : OrderIx) (f : OrderCtx → OrderCtx) (k : WorkerIx) : (s.modOrder u f).worker k = s.worker k := rfl
@[simp] theorem State.modOrder_permit (u : OrderIx) (f : OrderCtx → OrderCtx) (k : PermitIx) : (s.modOrder u f).permit k = s.permit k := rfl
@[simp] theorem State.modOrder_hold (u : OrderIx) (f : OrderCtx → OrderCtx) (k : Nat) : (s.modOrder u f).hold k = s.hold k := rfl

/-! ### bumpRef -/

@[simp] theorem State.bumpRef_pending  : (s.bumpRef).pending = s.pending := rfl
@[simp] theorem State.bumpRef_mem  : (s.bumpRef).mem = s.mem := rfl
@[simp] theorem State.bumpRef_xif  : (s.bumpRef).xif = s.xif := rfl
@[simp] theorem State.bumpRef_ports  : (s.bumpRef).ports = s.ports := rfl
@[simp] theorem State.bumpRef_offers  : (s.bumpRef).offers = s.offers := rfl
@[simp] theorem State.bumpRef_units  : (s.bumpRef).units = s.units := rfl
@[simp] theorem State.bumpRef_odp  : (s.bumpRef).odp = s.odp := rfl
@[simp] theorem State.bumpRef_orders  : (s.bumpRef).orders = s.orders := rfl
@[simp] theorem State.bumpRef_pen  : (s.bumpRef).pen = s.pen := rfl
@[simp] theorem State.bumpRef_permits  : (s.bumpRef).permits = s.permits := rfl
@[simp] theorem State.bumpRef_holds  : (s.bumpRef).holds = s.holds := rfl
@[simp] theorem State.bumpRef_lws  : (s.bumpRef).lws = s.lws := rfl
@[simp] theorem State.bumpRef_workers  : (s.bumpRef).workers = s.workers := rfl
@[simp] theorem State.bumpRef_freeDraw  : (s.bumpRef).freeDraw = s.freeDraw := rfl
@[simp] theorem State.bumpRef_port  (d : Chan) : (s.bumpRef).port d = s.port d := rfl
@[simp] theorem State.bumpRef_offer  (d : Chan) : (s.bumpRef).offer d = s.offer d := rfl
@[simp] theorem State.bumpRef_unit  (k : UnitIx) : (s.bumpRef).unit k = s.unit k := rfl
@[simp] theorem State.bumpRef_worker  (k : WorkerIx) : (s.bumpRef).worker k = s.worker k := rfl
@[simp] theorem State.bumpRef_permit  (k : PermitIx) : (s.bumpRef).permit k = s.permit k := rfl
@[simp] theorem State.bumpRef_order  (k : OrderIx) : (s.bumpRef).order k = s.order k := rfl
@[simp] theorem State.bumpRef_hold  (k : Nat) : (s.bumpRef).hold k = s.hold k := rfl

/-! ### What is put in place -/

/-- An entry reads as set, and every other one as before. -/
theorem State.setPort_port (u v : Chan) (x : Port) :
    (s.setPort u x).port v = if u = v then x else s.port v := by
  simp only [State.setPort, State.port, Vector.getElem_set, Fin.ext_iff]

@[simp] theorem State.setPort_port_same (u : Chan) (x : Port) : (s.setPort u x).port u = x := by
  simp [State.setPort_port]

theorem State.setPort_port_other {u v : Chan} (h : u ≠ v) (x : Port) : (s.setPort u x).port v = s.port v := by
  simp [State.setPort_port, h]

/-- An entry reads as set, and every other one as before. -/
theorem State.setOffer_offer (u v : Chan) (x : List OfferItem) :
    (s.setOffer u x).offer v = if u = v then x else s.offer v := by
  simp only [State.setOffer, State.offer, Vector.getElem_set, Fin.ext_iff]

@[simp] theorem State.setOffer_offer_same (u : Chan) (x : List OfferItem) : (s.setOffer u x).offer u = x := by
  simp [State.setOffer_offer]

theorem State.setOffer_offer_other {u v : Chan} (h : u ≠ v) (x : List OfferItem) : (s.setOffer u x).offer v = s.offer v := by
  simp [State.setOffer_offer, h]

/-- An entry reads as set, and every other one as before. -/
theorem State.setUnit_unit (u v : UnitIx) (x : UnitCtx) :
    (s.setUnit u x).unit v = if u = v then x else s.unit v := by
  simp only [State.setUnit, State.unit, Vector.getElem_set, Fin.ext_iff]

@[simp] theorem State.setUnit_unit_same (u : UnitIx) (x : UnitCtx) : (s.setUnit u x).unit u = x := by
  simp [State.setUnit_unit]

theorem State.setUnit_unit_other {u v : UnitIx} (h : u ≠ v) (x : UnitCtx) : (s.setUnit u x).unit v = s.unit v := by
  simp [State.setUnit_unit, h]

/-- An entry reads as set, and every other one as before. -/
theorem State.setWorker_worker (u v : WorkerIx) (x : WorkerCtx) :
    (s.setWorker u x).worker v = if u = v then x else s.worker v := by
  simp only [State.setWorker, State.worker, Vector.getElem_set, Fin.ext_iff]

@[simp] theorem State.setWorker_worker_same (u : WorkerIx) (x : WorkerCtx) : (s.setWorker u x).worker u = x := by
  simp [State.setWorker_worker]

theorem State.setWorker_worker_other {u v : WorkerIx} (h : u ≠ v) (x : WorkerCtx) : (s.setWorker u x).worker v = s.worker v := by
  simp [State.setWorker_worker, h]

/-- An entry reads as set, and every other one as before. -/
theorem State.setPermit_permit (u v : PermitIx) (x : PermitCtx) :
    (s.setPermit u x).permit v = if u = v then x else s.permit v := by
  simp only [State.setPermit, State.permit, Vector.getElem_set, Fin.ext_iff]

@[simp] theorem State.setPermit_permit_same (u : PermitIx) (x : PermitCtx) : (s.setPermit u x).permit u = x := by
  simp [State.setPermit_permit]

theorem State.setPermit_permit_other {u v : PermitIx} (h : u ≠ v) (x : PermitCtx) : (s.setPermit u x).permit v = s.permit v := by
  simp [State.setPermit_permit, h]

/-- An entry reads as set, and every other one as before. -/
theorem State.setOrder_order (u v : OrderIx) (x : OrderCtx) :
    (s.setOrder u x).order v = if u = v then x else s.order v := by
  simp only [State.setOrder, State.order, Vector.getElem_set, Fin.ext_iff]

@[simp] theorem State.setOrder_order_same (u : OrderIx) (x : OrderCtx) : (s.setOrder u x).order u = x := by
  simp [State.setOrder_order]

theorem State.setOrder_order_other {u v : OrderIx} (h : u ≠ v) (x : OrderCtx) : (s.setOrder u x).order v = s.order v := by
  simp [State.setOrder_order, h]

/-- The entry changed reads as changed, and every other one as before. -/
theorem State.modPort_port (u v : Chan) (f : Port → Port) :
    (s.modPort u f).port v = if u = v then f (s.port u) else s.port v :=
  State.setPort_port s u v _

@[simp] theorem State.modPort_port_same (u : Chan) (f : Port → Port) : (s.modPort u f).port u = f (s.port u) :=
  State.setPort_port_same s u _

theorem State.modPort_port_other {u v : Chan} (h : u ≠ v) (f : Port → Port) : (s.modPort u f).port v = s.port v :=
  State.setPort_port_other s h _

/-- The entry changed reads as changed, and every other one as before. -/
theorem State.modUnit_unit (u v : UnitIx) (f : UnitCtx → UnitCtx) :
    (s.modUnit u f).unit v = if u = v then f (s.unit u) else s.unit v :=
  State.setUnit_unit s u v _

@[simp] theorem State.modUnit_unit_same (u : UnitIx) (f : UnitCtx → UnitCtx) : (s.modUnit u f).unit u = f (s.unit u) :=
  State.setUnit_unit_same s u _

theorem State.modUnit_unit_other {u v : UnitIx} (h : u ≠ v) (f : UnitCtx → UnitCtx) : (s.modUnit u f).unit v = s.unit v :=
  State.setUnit_unit_other s h _

/-- The entry changed reads as changed, and every other one as before. -/
theorem State.modWorker_worker (u v : WorkerIx) (f : WorkerCtx → WorkerCtx) :
    (s.modWorker u f).worker v = if u = v then f (s.worker u) else s.worker v :=
  State.setWorker_worker s u v _

@[simp] theorem State.modWorker_worker_same (u : WorkerIx) (f : WorkerCtx → WorkerCtx) : (s.modWorker u f).worker u = f (s.worker u) :=
  State.setWorker_worker_same s u _

theorem State.modWorker_worker_other {u v : WorkerIx} (h : u ≠ v) (f : WorkerCtx → WorkerCtx) : (s.modWorker u f).worker v = s.worker v :=
  State.setWorker_worker_other s h _

/-- The entry changed reads as changed, and every other one as before. -/
theorem State.modOrder_order (u v : OrderIx) (f : OrderCtx → OrderCtx) :
    (s.modOrder u f).order v = if u = v then f (s.order u) else s.order v :=
  State.setOrder_order s u v _

@[simp] theorem State.modOrder_order_same (u : OrderIx) (f : OrderCtx → OrderCtx) : (s.modOrder u f).order u = f (s.order u) :=
  State.setOrder_order_same s u _

theorem State.modOrder_order_other {u v : OrderIx} (h : u ≠ v) (f : OrderCtx → OrderCtx) : (s.modOrder u f).order v = s.order v :=
  State.setOrder_order_other s h _

/-- The hold count set reads as set, and every other one as before. -/
theorem State.setHold_hold (k n j : Nat) :
    (s.setHold k n).hold j = if k = j ∧ j < 256 then n else s.hold j := by
  unfold State.setHold State.hold
  by_cases hj : j < 256
  · by_cases hk : k < 256
    · simp [hj, hk, Vector.getElem_set]
    · have : k ≠ j := by omega
      simp [hj, hk, this]
  · by_cases hk : k < 256 <;> simp [hj]

@[simp] theorem State.setXif_xif (x : Xif) : (s.setXif x).xif = x := rfl
@[simp] theorem State.setMem_mem (m : Memory) : (s.setMem m).mem = m := rfl

/-- Setting an entry twice keeps the second. -/
theorem State.setUnit_setUnit (u : UnitIx) (x y : UnitCtx) : (s.setUnit u x).setUnit u y = s.setUnit u y := by
  simp [State.setUnit]

/-- Setting an entry to what it is changes nothing. -/
theorem State.setUnit_unit_eq (u : UnitIx) : s.setUnit u (s.unit u) = s := by
  simp [State.setUnit, State.unit]

end Sys2Proof.Machine
end

