-- ==== Sys2Proof/Laws/Writes.lean ====
section
/-! SUPPORT. What an access, a field write, a record write and a notice change: only bytes the part writes, notices and
bus accounting. -/

namespace Sys2Proof.Safety

open Sys2Proof.Machine

/-! ## The relations -/

theorem XifKept.refl (x : Xif) : XifKept x x :=
  ⟨rfl, fun h => ⟨h, rfl, rfl, rfl, rfl⟩, .inl rfl, by simp, Nat.le_refl _, id⟩

theorem XifKept.trans {x y z : Xif} (h : XifKept x y) (k : XifKept y z) : XifKept x z where
  rest := by rw [k.rest, h.rest]
  plain hx := by
    obtain ⟨a, b, c, d, e⟩ := h.plain hx
    obtain ⟨a', b', c', d', e'⟩ := k.plain a
    exact ⟨a', b'.trans b, c'.trans c, d'.trans d, e'.trans e⟩
  mode := by
    rcases k.mode with hk | hk
    · rcases h.mode with hh | hh
      · exact .inl (hk.trans hh)
      · exact .inr (hk.trans hh)
    · exact .inr hk
  pendingKept := by
    have a := h.pendingKept
    have b := k.pendingKept
    rw [← a, BitVec.and_assoc, b]
  noticesKept := ⟨Nat.le_trans h.noticesKept.1 k.noticesKept.1, fun hx => k.noticesKept.2 (h.noticesKept.2 hx)⟩

theorem XifKept.xbase {x y : Xif} (h : XifKept x y) : y.xbase = x.xbase := by rw [h.rest]
theorem XifKept.clock {x y : Xif} (h : XifKept x y) : y.clock = x.clock := by rw [h.rest]
theorem XifKept.filling {x y : Xif} (h : XifKept x y) : y.filling = x.filling := by rw [h.rest]
theorem XifKept.consuming {x y : Xif} (h : XifKept x y) : y.consuming = x.consuming := by rw [h.rest]
theorem XifKept.commonLimit {x y : Xif} (h : XifKept x y) : y.commonLimit = x.commonLimit := by rw [h.rest]

theorem MemKept.refl (rs : List Region) (s : State) : MemKept rs s s :=
  ⟨fun _ _ => rfl, fun _ _ _ _ => rfl, id⟩

theorem areaAddr_kept {s t : State} (h : XifKept s.xif t.xif) (r : Region) (o : Nat) :
    t.areaAddr r o = s.areaAddr r o := by
  unfold State.areaAddr; rw [h.xbase]

theorem MemKept.trans {rs : List Region} {s t u : State} (h : MemKept rs s t) (hx : XifKept s.xif t.xif)
    (k : MemKept rs t u) : MemKept rs s u where
  bytes a ha := by
    rw [k.bytes a (by rw [hx.xbase]; exact ha), h.bytes a ha]
  raised i h1 h2 h3 := by
    have := k.raised i h1 (by have := hx.noticesKept.1; omega) h3
    rw [areaAddr_kept hx, hx.filling] at this
    rw [this, h.raised i h1 h2 h3]
  canonical c := k.canonical (h.canonical c)

theorem MemKept.of_mem_eq {rs : List Region} {s t : State} (h : t.mem = s.mem) : MemKept rs s t :=
  ⟨fun _ _ => by rw [h], fun _ _ _ _ => by rw [h], fun c => by unfold MemoryCanonical at *; rw [h]; exact c⟩

theorem PartByte.mono {rs rs' : List Region} (h : ∀ r ∈ rs, r ∈ rs') {b a : Nat} (p : PartByte rs b a) :
    PartByte rs' b a := by
  obtain ⟨r, hr, o, ho, ha⟩ := p
  exact ⟨r, h r hr, o, ho, ha⟩

theorem MemKept.mono {rs rs' : List Region} (h : ∀ r ∈ rs, r ∈ rs') {s t : State} (k : MemKept rs s t) :
    MemKept rs' s t :=
  ⟨fun a ha => k.bytes a fun p => ha (p.mono h), k.raised, k.canonical⟩

theorem Wrote.refl (rs : List Region) (s : State) : Wrote rs s s := ⟨rfl, .refl _, .refl rs s⟩

theorem Wrote.trans {rs : List Region} {s t u : State} (h : Wrote rs s t) (k : Wrote rs t u) : Wrote rs s u where
  rest := by rw [k.rest, h.rest]
  xif := h.xif.trans k.xif
  mem := h.mem.trans h.xif k.mem

theorem Wrote.mono {rs rs' : List Region} (h : ∀ r ∈ rs, r ∈ rs') {s t : State} (k : Wrote rs s t) : Wrote rs' s t :=
  ⟨k.rest, k.xif, k.mem.mono h⟩

theorem Wrote.pending {rs : List Region} {s t : State} (h : Wrote rs s t) : t.pending = s.pending := by rw [h.rest]
theorem Wrote.ports {rs : List Region} {s t : State} (h : Wrote rs s t) : t.ports = s.ports := by rw [h.rest]
theorem Wrote.offers {rs : List Region} {s t : State} (h : Wrote rs s t) : t.offers = s.offers := by rw [h.rest]
theorem Wrote.ule {rs : List Region} {s t : State} (h : Wrote rs s t) : t.ule = s.ule := by rw [h.rest]
theorem Wrote.units {rs : List Region} {s t : State} (h : Wrote rs s t) : t.units = s.units := by rw [h.rest]
theorem Wrote.odp {rs : List Region} {s t : State} (h : Wrote rs s t) : t.odp = s.odp := by rw [h.rest]
theorem Wrote.orders {rs : List Region} {s t : State} (h : Wrote rs s t) : t.orders = s.orders := by rw [h.rest]
theorem Wrote.pen {rs : List Region} {s t : State} (h : Wrote rs s t) : t.pen = s.pen := by rw [h.rest]
theorem Wrote.permits {rs : List Region} {s t : State} (h : Wrote rs s t) : t.permits = s.permits := by rw [h.rest]
theorem Wrote.holds {rs : List Region} {s t : State} (h : Wrote rs s t) : t.holds = s.holds := by rw [h.rest]
theorem Wrote.lws {rs : List Region} {s t : State} (h : Wrote rs s t) : t.lws = s.lws := by rw [h.rest]
theorem Wrote.workers {rs : List Region} {s t : State} (h : Wrote rs s t) : t.workers = s.workers := by rw [h.rest]
theorem Wrote.freeDraw {rs : List Region} {s t : State} (h : Wrote rs s t) : t.freeDraw = s.freeDraw := by
  rw [h.rest]
theorem Wrote.port {rs : List Region} {s t : State} (h : Wrote rs s t) (c : Chan) : t.port c = s.port c := by
  unfold State.port; rw [h.ports]
theorem Wrote.unit {rs : List Region} {s t : State} (h : Wrote rs s t) (c : UnitIx) : t.unit c = s.unit c := by
  unfold State.unit; rw [h.units]
theorem Wrote.worker {rs : List Region} {s t : State} (h : Wrote rs s t) (c : WorkerIx) :
    t.worker c = s.worker c := by
  unfold State.worker; rw [h.workers]
theorem Wrote.permit {rs : List Region} {s t : State} (h : Wrote rs s t) (c : PermitIx) :
    t.permit c = s.permit c := by
  unfold State.permit; rw [h.permits]
theorem Wrote.order {rs : List Region} {s t : State} (h : Wrote rs s t) (c : OrderIx) : t.order c = s.order c := by
  unfold State.order; rw [h.orders]

/-! ## Accesses and field writes -/

/-- An access changes the bus accounting alone, and with no timeout announced nothing at all (R186). -/
theorem access_wrote (rs : List Region) (s : State) (r : Region) (w : Bool) : Wrote rs s (s.access r w) := by
  unfold State.access
  split
  · exact .refl _ _
  · rename_i n again rest h
    exact ⟨rfl, ⟨rfl, fun hx => by simp [h] at hx, .inl rfl, by simp, Nat.le_refl _, id⟩, .of_mem_eq rfl⟩
  · rename_i rest h
    exact ⟨rfl, ⟨rfl, fun hx => by simp [h] at hx, .inl rfl, by simp, Nat.le_refl _, id⟩, .of_mem_eq rfl⟩
  · rename_i rest h
    refine ⟨rfl, ⟨rfl, fun hx => by simp [h] at hx, .inr rfl, ?_, Nat.le_refl _, id⟩, .of_mem_eq rfl⟩
    simp only [State.enterFaulted, Xif.setPending]
    ext i
    simp
    exact fun h => .inl h

theorem access_plain {s : State} (h : s.xif.busPlan = []) (r : Region) (w : Bool) : s.access r w = s := by
  unfold State.access
  rw [h]

/-- Reads of fields change the bus accounting alone. -/
theorem readAccesses_wrote (rs : List Region) (s : State) (r : Region) (n : Nat) :
    Wrote rs s (s.readAccesses r n) := by
  induction n generalizing s with
  | zero => exact .refl _ _
  | succ n ih =>
    unfold State.readAccesses
    split
    · exact (access_wrote rs s r false).trans (ih _)
    · exact .refl _ _

theorem readAccesses_plain {s : State} (h : s.xif.busPlan = []) (r : Region) (n : Nat) :
    s.readAccesses r n = s := by
  induction n with
  | zero => rfl
  | succ n ih =>
    unfold State.readAccesses
    split
    · rw [access_plain h, ih]
    · rfl

/-- An access changes neither page nor its count. -/
theorem access_notices (s : State) (r : Region) (w : Bool) : (s.access r w).xif.notices = s.xif.notices := by
  unfold State.access
  split <;> rfl

/-- A field write outside the notices already raised. -/
theorem writeField_apart {rs : List Region} (s : State) {r : Region} (hr : r ∈ rs) {off : Nat} {bs : List Byte}
    (ho : ∀ i < bs.length, partOffset r (off + i) = true)
    (hapart : ∀ i, 16 ≤ i → i < 16 * (s.xif.notices + 1) → i < 0x800 → ∀ j < bs.length,
      regionOffset s.xif.filling.noticeRegion + i ≠ regionOffset r + (off + j)) :
    Wrote rs s (s.writeField r off bs) := by
  unfold State.writeField
  split
  · have ha := access_wrote rs s r true
    dsimp only
    split
    · refine ha.trans ⟨rfl, .refl _, ⟨fun a hn => ?_, fun i h1 h2 h3 => ?_, fun c => Memory.wf_writeBytes c _ _⟩⟩
      · refine Memory.read_writeBytes_other bs ?_
        refine Decidable.byContradiction fun hin => ?_
        refine hn ⟨r, hr, off + (a - State.areaAddr (s.access r true) r off), ho _ (by omega), ?_⟩
        simp only [State.areaAddr] at hin ⊢
        omega
      · refine Memory.read_writeBytes_other bs ?_
        refine Decidable.byContradiction fun hin => ?_
        rw [access_notices] at h2
        rw [ha.xif.filling] at hin
        simp only [State.areaAddr] at hin
        refine hapart i h1 h2 h3
          (regionOffset s.xif.filling.noticeRegion + i - regionOffset r - off) (by omega) (by omega)
    · exact ha
  · exact .refl _ _

/-- The part's bytes of the other regions are not in the notice pages. -/
theorem partOffset_apart {r : Region} {o : Nat} (h : partOffset r o = true) (hA : r ≠ .noticeA) (hB : r ≠ .noticeB)
    (p : Page) (i : Nat) (hi : i < 0x800) : regionOffset p.noticeRegion + i ≠ regionOffset r + o := by
  cases r <;> cases p <;>
    simp [partOffset, regionOffset, Page.noticeRegion] at h hA hB ⊢ <;> omega

/-- A field write changes bytes of its field, in part fields of a region, and bus accounting (R186, R188). -/
theorem writeField_wrote {rs : List Region} (s : State) {r : Region} (hr : r ∈ rs)
    (hA : r ≠ .noticeA) (hB : r ≠ .noticeB) {off : Nat} {bs : List Byte}
    (ho : ∀ i < bs.length, partOffset r (off + i) = true) : Wrote rs s (s.writeField r off bs) :=
  writeField_apart s hr ho fun i _ _ h3 j hj => partOffset_apart (ho j hj) hA hB _ i h3

/-- Field writes in turn. -/
theorem writeFields_wrote {rs : List Region} (s : State) {r : Region} (hr : r ∈ rs)
    (hA : r ≠ .noticeA) (hB : r ≠ .noticeB) (base : Nat)
    (fields : List (Nat × List Byte))
    (ho : ∀ f ∈ fields, ∀ i < f.2.length, partOffset r (base + f.1 + i) = true) :
    Wrote rs s (s.writeFields r base fields) := by
  unfold State.writeFields
  induction fields generalizing s with
  | nil => exact .refl _ _
  | cons f fs ih =>
    exact (writeField_wrote s hr hA hB (ho f (by simp))).trans
      (ih _ fun g hg => ho g (List.mem_cons_of_mem _ hg))

@[simp] theorem beBytes_length (n v : Nat) : (beBytes n v).length = n := by
  induction n generalizing v with
  | zero => rfl
  | succ n ih => simp [beBytes, ih]

@[simp] theorem timeBytes_length (n : Nat) (t : Option Nat) : (timeBytes n t).length = n := by
  cases t <;> simp [timeBytes]

@[simp] theorem noticeBytes_length (nt : Notice) (k : Nat) : (nt.bytes k).length = 16 := by
  simp [Notice.bytes]

/-! ## Notices (R184) -/

/-- A notice page's bytes are the part's. -/
theorem noticeRegion_part (p : Page) (o : Nat) (h : o < 0x800) : partOffset p.noticeRegion o = true := by
  cases p <;> simp [Page.noticeRegion, partOffset, h]

theorem noticeRegion_mem (p : Page) : p.noticeRegion ∈ [Region.noticeA, Region.noticeB] := by
  cases p <;> simp [Page.noticeRegion]

/-- Setting a pending class keeps those already pending. -/
theorem setPending_keeps (x : Xif) (k : NoticeClass) : x.pending &&& (x.setPending k).pending = x.pending := by
  simp only [Xif.setPending]
  ext i
  simp
  exact fun h => .inl h

/-- A notice raised changes notice pages, the FILLING page's counts and the pending classes, and bus accounting. -/
theorem raise_wrote (s : State) (nt : Notice) : Wrote [.noticeA, .noticeB] s (s.raise nt) := by
  unfold State.raise
  split
  · split
    · rename_i hn
      have hw : Wrote [.noticeA, .noticeB] s (s.writeField s.xif.filling.noticeRegion (16 * (s.xif.notices + 1))
          (nt.bytes s.second)) := by
        refine writeField_apart s (noticeRegion_mem _) (fun i hi => noticeRegion_part _ _ ?_)
          fun i h1 h2 h3 j hj => ?_
        · rw [noticeBytes_length] at hi
          omega
        · omega
      dsimp only
      split
      · refine hw.trans ⟨rfl, ⟨rfl, fun hx => ⟨hx, rfl, rfl, rfl, rfl⟩, .inl rfl, ?_, ?_, ?_⟩, .of_mem_eq rfl⟩
        · exact setPending_keeps _ _
        · simp [Xif.setPending]
        · intro _
          have : (s.writeField s.xif.filling.noticeRegion (16 * (s.xif.notices + 1))
            (nt.bytes s.second)).xif.notices = s.xif.notices := by
            unfold State.writeField
            rw [if_pos ‹_›]
            · have : (s.access s.xif.filling.noticeRegion true).xif.notices = s.xif.notices := by
                unfold State.access
                split <;> rfl
              dsimp only
              split <;> exact this
          simp only [Xif.setPending, this]
          omega
      · exact hw
    · refine ⟨rfl, ⟨rfl, fun hx => ⟨hx, rfl, rfl, rfl, rfl⟩, .inl rfl, ?_, ?_, ?_⟩, .of_mem_eq rfl⟩
      · exact setPending_keeps _ _
      · simp [Xif.setPending]
      · exact id
  · split
    · refine ⟨rfl, ⟨rfl, fun hx => ⟨hx, rfl, rfl, rfl, rfl⟩, .inl rfl, ?_, ?_, ?_⟩, .of_mem_eq rfl⟩
      · exact setPending_keeps _ _
      · simp [Xif.setPending]
      · exact id
    · exact .refl _ _

/-- The header of the FILLING page is in a notice page. -/
theorem writeNoticeHeader_wrote (s : State) : Wrote [.noticeA, .noticeB] s s.writeNoticeHeader := by
  refine writeField_apart s (noticeRegion_mem _) (fun i hi => noticeRegion_part _ _ ?_) fun i h1 h2 h3 j hj => ?_
  · simp at hi
    omega
  · simp at hj
    omega

/-! ## Records and status blocks -/

theorem writeUnit_wrote (s : State) (u : UnitIx) : Wrote [.units] s (s.writeUnit u) := by
  refine writeFields_wrote s (by simp) (by decide) (by decide) _ _ ?_
  intro f hf i hi
  have hu := u.isLt
  simp only [UnitCtx.partFields, List.mem_append, List.mem_cons, List.not_mem_nil, or_false, List.mem_map,
    List.mem_finRange, true_and] at hf
  rcases hf with (rfl | rfl | rfl | rfl) | ⟨k, rfl⟩ <;>
    simp [partOffset] at hi ⊢ <;> omega

theorem writeCounter_wrote (s : State) (u : UnitIx) : Wrote [.units] s (s.writeCounter u) := by
  refine writeField_wrote s (by simp) (by decide) (by decide) fun i hi => ?_
  have hu := u.isLt
  simp [partOffset] at hi ⊢
  omega

theorem positionBytes_length (x : WorkerCtx) : x.positionBytes.length = 8 := by
  unfold WorkerCtx.positionBytes
  split <;> simp

theorem writeWorker_wrote (s : State) (w : WorkerIx) : Wrote [.workers] s (s.writeWorker w) := by
  refine writeFields_wrote s (by simp) (by decide) (by decide) _ _ ?_
  intro f hf i hi
  have hu := w.isLt
  have hl := positionBytes_length (s.worker w)
  simp only [WorkerCtx.partFields, List.mem_cons, List.not_mem_nil, or_false] at hf
  rcases hf with rfl | rfl | rfl | rfl | rfl | rfl | rfl | rfl | rfl <;>
    simp [partOffset] at hi ⊢ <;> omega

theorem writeOpenPermit_wrote (s : State) (w : WorkerIx) : Wrote [.workers] s (s.writeOpenPermit w) := by
  refine writeField_wrote s (by simp) (by decide) (by decide) fun i hi => ?_
  have hu := w.isLt
  simp [partOffset] at hi ⊢
  omega

theorem writePermit_wrote (s : State) (p : PermitIx) : Wrote [.permits] s (s.writePermit p) := by
  refine writeFields_wrote s (by simp) (by decide) (by decide) _ _ ?_
  intro f hf i hi
  have hu := p.isLt
  simp only [PermitCtx.partFields, List.mem_append, List.mem_cons, List.not_mem_nil, or_false, List.mem_map,
    List.mem_range] at hf
  rcases hf with (rfl | rfl | rfl | rfl) | ⟨k, hk, rfl⟩ <;>
    simp only [PermitCtx.refusalBytes, List.length_cons, List.length_nil] at hi <;>
    refine decide_eq_true ?_ <;> omega

theorem writeOrder_wrote (s : State) (o : OrderIx) : Wrote [.orders] s (s.writeOrder o) := by
  refine writeFields_wrote s (by simp) (by decide) (by decide) _ _ ?_
  intro f hf i hi
  have hu := o.isLt
  have hl : ∀ r, (replyBytes r).length = 2 := by intro r; cases r <;> rfl
  simp only [OrderCtx.partFields, List.mem_cons, List.not_mem_nil, or_false] at hf
  rcases hf with rfl | rfl | rfl | rfl | rfl | rfl | rfl | rfl | rfl | rfl <;>
    simp [partOffset, hl] at hi ⊢ <;> omega

theorem writeChannelStatus_wrote (s : State) (c : Chan) : Wrote [.config] s (s.writeChannelStatus c) := by
  refine writeFields_wrote s (by simp) (by decide) (by decide) _ _ ?_
  intro f hf i hi
  have hu := c.isLt
  simp only [Port.statusFields, List.mem_append, List.mem_cons, List.not_mem_nil, or_false, List.mem_map,
    List.mem_finRange, true_and] at hf
  have hp : ∀ o, 0x050 ≤ o → o < 0x0D0 → (o - 0x050) % 32 < 0x15 → partOffset .config o = true := by
    intro o h1 h2 h3
    simp [partOffset, h1, h2, h3]
  rcases hf with (rfl | rfl | rfl | rfl) | ⟨k, rfl⟩ <;>
    simp only [creditBytes, beBytes_length, List.length_cons, List.length_nil] at hi <;>
    simp only [statusOffset] <;> apply hp <;> omega

theorem writeStatus_wrote (s : State) : Wrote [.config] s s.writeStatus := by
  refine writeFields_wrote s (by simp) (by decide) (by decide) _ _ ?_
  intro f hf i hi
  simp only [State.statusFields, List.mem_cons, List.not_mem_nil, or_false] at hf
  rcases hf with rfl | rfl | rfl | rfl | rfl | rfl | rfl | rfl <;>
    simp [partOffset] at hi ⊢ <;> omega

end Sys2Proof.Safety
end

