-- ==== Sys2Proof/Laws/Halt.lean ====
section
/-! SUPPORT. What the stages of a HALT that completes change, up to its drop. -/

namespace Sys2Proof.Safety

open Sys2Proof.Machine

/-- The writes HALT completes are those in flight of registered units. -/
theorem mem_writesInFlight (s : State) (u : UnitIx) :
    u ∈ s.writesInFlight ↔ (s.unit u).registered = true ∧ (s.unit u).inFlight.isSome = true := by
  simp [State.writesInFlight]

theorem haltStage_wrote {rs : List Region} {f : State → State} (h : ∀ s, Wrote rs s (f s)) (s : State) :
    Wrote rs s (s.haltStage f) := by
  unfold State.haltStage
  split
  · exact h s
  · exact .refl _ s

theorem foldl_wrote {α : Type} {rs : List Region} (f : State → α → State) (h : ∀ s a, Wrote rs s (f s a)) (l : List α)
    (s : State) : Wrote rs s (l.foldl f s) := by
  induction l generalizing s with
  | nil => exact .refl _ s
  | cons a l ih => exact (h s a).trans (ih _)

theorem forAll_wrote {n : Nat} {rs : List Region} (f : Fin n → State → State) (h : ∀ i s, Wrote rs s (f i s))
    (s : State) : Wrote rs s (forAll f s) :=
  foldl_wrote _ (fun s i => h i s) _ s

/-- The counter writes alone change bytes of unit records. -/
theorem completeWrites_wrote (s : State) : Wrote [.units] s (s.completeWrites fun s _ => s) :=
  foldl_wrote _ (fun s u =>
    (haltStage_wrote (fun s => writeCounter_wrote s u) s).trans (haltStage_wrote (fun s => .refl _ s) _)) _ s

/-- The regions HALT writes. -/
def haltRegions : List Region := [.config, .units, .workers, .permits, .orders, .noticeA, .noticeB]

theorem writeAllRecords_wrote (s : State) : Wrote haltRegions s s.writeAllRecords := by
  unfold State.writeAllRecords State.writeChannelStatuses
  refine (forAll_wrote _ (fun u s => ?_) s).trans <|
    (forAll_wrote _ (fun w s => ((writeWorker_wrote s w).trans (writeOpenPermit_wrote _ w)).mono (by decide)) _).trans <|
    (forAll_wrote _ (fun p s => (writePermit_wrote s p).mono (by decide)) _).trans <|
    (forAll_wrote _ (fun o s => (writeOrder_wrote s o).mono (by decide)) _).trans <|
    (forAll_wrote _ (fun c s => (writeChannelStatus_wrote s c).mono (by decide)) _).trans <|
    (writeStatus_wrote _).mono (by decide)
  split
  · exact ((writeUnit_wrote s u).trans (writeCounter_wrote _ u)).mono (by decide)
  · exact .refl _ s

/-- The stages of HALT after the counter writes change bytes of the part in its records, blocks and notice pages, and the
bus accounting, no more. -/
theorem closeHalt_wrote (s : State) : Wrote haltRegions s s.closeHalt := by
  unfold State.closeHalt
  exact ((haltStage_wrote writeAllRecords_wrote s).trans
    (haltStage_wrote (fun s => (raise_wrote s .halted).mono (by decide)) _)).trans
    (haltStage_wrote (fun s => (writeNoticeHeader_wrote s).mono (by decide)) _)

end Sys2Proof.Safety
end

