-- ==== Sys2Proof/Laws/Links.lean ====
section
/-! SUPPORT. What the link engine's own activity leaves as it was: one law per operation of chapters 3 and 4, up to the
end of a step (State.settle). The laws are about the relation Undisturbed of Safety.lean. -/

namespace Sys2Proof.Safety

open Sys2Proof.Machine

/-! ## The relation -/

theorem SameUnit.refl (x : UnitCtx) : SameUnit x x := by constructor <;> rfl

theorem SameUnit.trans {x y z : UnitCtx} (h : SameUnit x y) (k : SameUnit y z) : SameUnit x z := by
  constructor
  · exact k.registered.trans h.registered
  · exact k.address.trans h.address
  · exact k.key.trans h.key
  · exact k.counter.trans h.counter
  · exact k.failures.trans h.failures
  · exact k.codeLock.trans h.codeLock
  · exact k.current.trans h.current
  · exact k.hint.trans h.hint
  · exact k.lastHeard.trans h.lastHeard
  · exact k.vr.trans h.vr
  · exact k.lockout.trans h.lockout
  · exact k.resend.trans h.resend
  · exact k.awaiting.trans h.awaiting
  · exact k.inFlight.trans h.inFlight
  · exact k.codeQueue.trans h.codeQueue
  · exact k.busy.trans h.busy
  · exact k.birth.trans h.birth
  · exact k.report.trans h.report
  · exact k.prompt.trans h.prompt
  · exact k.alarm.trans h.alarm

theorem SamePermit.refl (x : PermitCtx) : SamePermit x x := by constructor <;> rfl

theorem SamePermit.trans {x y z : PermitCtx} (h : SamePermit x y) (k : SamePermit y z) : SamePermit x z := by
  constructor
  · exact k.state.trans h.state
  · exact k.crew.trans h.crew
  · exact k.workers.trans h.workers
  · exact k.sections.trans h.sections
  · exact k.n.trans h.n
  · exact k.h.trans h.h
  · exact k.current.trans h.current
  · exact k.source.trans h.source
  · exact k.lastRefusal.trans h.lastRefusal
  · exact k.steps.trans h.steps

theorem LinkKept.refl (s : State) : LinkKept s s :=
  ⟨rfl, rfl, rfl, rfl, rfl, rfl, rfl, rfl, fun _ => rfl, fun _ _ => .refl _, fun _ => .refl _, fun _ => .refl _, .refl _,
    .refl _ _⟩

theorem LinkKept.trans {s t u : State} (h : LinkKept s t) (k : LinkKept t u) : LinkKept s u where
  pending := k.pending.trans h.pending
  workers := k.workers.trans h.workers
  holds := k.holds.trans h.holds
  lws := k.lws.trans h.lws
  pen := k.pen.trans h.pen
  freeDraw := k.freeDraw.trans h.freeDraw
  odp := by rw [k.odp, h.odp]
  ule := by rw [k.ule, h.ule]
  port c := by rw [k.port c, h.port c]
  queue c hc := (k.queue c (by rw [h.port c]; exact hc)).trans (h.queue c hc)
  permit p := (h.permit p).trans (k.permit p)
  unit v := (h.unit v).trans (k.unit v)
  xif := h.xif.trans k.xif
  mem := h.mem.trans h.xif k.mem

theorem Undisturbed.refl (s : State) : Undisturbed s s := ⟨.refl s, fun _ => rfl⟩

theorem Undisturbed.trans {s t u : State} (h : Undisturbed s t) (k : Undisturbed t u) : Undisturbed s u :=
  ⟨h.toLinkKept.trans k.toLinkKept, fun o => by rw [k.order o, h.order o]⟩

theorem Undisturbed.of_wrote {rs : List Region} (hr : ∀ r ∈ rs, r ∈ linkRegions) {s t : State} (h : Wrote rs s t) :
    Undisturbed s t where
  pending := h.pending
  workers := h.workers
  holds := h.holds
  lws := h.lws
  pen := h.pen
  freeDraw := h.freeDraw
  odp := by rw [h.odp]
  ule := by rw [h.ule]
  port c := by rw [h.port c]
  queue c _ := by simp only [h.port c, List.Sublist.refl]
  order o := by rw [h.order o]
  permit p := by rw [h.permit p]; exact .refl _
  unit v := by rw [h.unit v]; exact .refl _
  xif := h.xif
  mem := h.mem.mono hr

/-- A change of the link engine's own fields, of queues and offers. -/
theorem Undisturbed.of_fields {s t : State} (hrest : t = { s with
      ports := t.ports, offers := t.offers, units := t.units, orders := t.orders, permits := t.permits
      ule := { s.ule with nextRef := t.ule.nextRef, moment := t.ule.moment }
      odp := { s.odp with strayBulletins := t.odp.strayBulletins } })
    (hport : ∀ c, t.port c = { s.port c with queue := (t.port c).queue })
    (hqueue : ∀ c, (s.port c).enabled = false → (t.port c).queue.Sublist (s.port c).queue)
    (horder : ∀ o, t.order o = { s.order o with nextSeg := (t.order o).nextSeg, cancel := (t.order o).cancel })
    (hpermit : ∀ p, SamePermit (s.permit p) (t.permit p))
    (hunit : ∀ u, SameUnit (s.unit u) (t.unit u)) : Undisturbed s t where
  pending := by rw [hrest]
  workers := by rw [hrest]
  holds := by rw [hrest]
  lws := by rw [hrest]
  pen := by rw [hrest]
  freeDraw := by rw [hrest]
  odp := by rw [hrest]
  ule := by rw [hrest]
  port := hport
  queue := hqueue
  order := horder
  permit := hpermit
  unit := hunit
  xif := by rw [hrest]; exact .refl _
  mem := .of_mem_eq (by rw [hrest])

/-! ## Elementary changes -/

theorem setUnit_undisturbed (s : State) (u : UnitIx) {x : UnitCtx} (h : SameUnit (s.unit u) x) :
    Undisturbed s (s.setUnit u x) := by
  refine .of_fields rfl (fun _ => rfl) (fun _ _ => .refl _) (fun _ => rfl) (fun _ => .refl _) fun v => ?_
  rw [State.setUnit_unit]
  split
  · rename_i e; subst e; exact h
  · exact .refl _

theorem modUnit_undisturbed (s : State) (u : UnitIx) {f : UnitCtx → UnitCtx} (h : ∀ x, SameUnit x (f x)) :
    Undisturbed s (s.modUnit u f) := setUnit_undisturbed s u (h _)

theorem modDue_undisturbed (s : State) (u : UnitIx) {f : DueSet → DueSet}
    (h : ∀ d, (f d).report = d.report ∧ (f d).prompt = d.prompt ∧ (f d).alarm = d.alarm) :
    Undisturbed s (s.modDue u f) :=
  modUnit_undisturbed s u fun x =>
    ⟨rfl, rfl, rfl, rfl, rfl, rfl, rfl, rfl, rfl, rfl, rfl, rfl, rfl, rfl, rfl, rfl, rfl,
      (h x.due).1, (h x.due).2.1, (h x.due).2.2⟩

theorem setOffer_undisturbed (s : State) (c : Chan) (l : List OfferItem) : Undisturbed s (s.setOffer c l) :=
  .of_fields rfl (fun _ => rfl) (fun _ _ => .refl _) (fun _ => rfl) (fun _ => .refl _) fun _ => .refl _

theorem modPort_undisturbed (s : State) (c : Chan) {f : Port → Port}
    (h : ∀ p, f p = { p with queue := (f p).queue })
    (hq : (s.port c).enabled = false → (f (s.port c)).queue.Sublist (s.port c).queue) :
    Undisturbed s (s.modPort c f) := by
  refine .of_fields rfl (fun d => ?_) (fun d hd => ?_) (fun _ => rfl) (fun _ => .refl _) fun _ => .refl _
  · rw [State.modPort_port]
    split
    · rename_i e; subst e; exact h _
    · rfl
  · rw [State.modPort_port]
    split
    · rename_i e; subst e; exact hq hd
    · exact .refl _

theorem setPermit_undisturbed (s : State) (p : PermitIx) {x : PermitCtx} (h : SamePermit (s.permit p) x) :
    Undisturbed s (s.setPermit p x) := by
  refine .of_fields rfl (fun _ => rfl) (fun _ _ => .refl _) (fun _ => rfl) (fun q => ?_) fun _ => .refl _
  rw [State.setPermit_permit]
  split
  · rename_i e; subst e; exact h
  · exact .refl _

theorem setOrder_undisturbed (s : State) (o : OrderIx) {x : OrderCtx}
    (h : x = { s.order o with nextSeg := x.nextSeg, cancel := x.cancel }) : Undisturbed s (s.setOrder o x) := by
  refine .of_fields rfl (fun _ => rfl) (fun _ _ => .refl _) (fun q => ?_) (fun _ => .refl _) fun _ => .refl _
  rw [State.setOrder_order]
  split
  · rename_i e; subst e; exact h
  · rfl

theorem modOrder_undisturbed (s : State) (o : OrderIx) {f : OrderCtx → OrderCtx}
    (h : ∀ x, f x = { x with nextSeg := (f x).nextSeg, cancel := (f x).cancel }) :
    Undisturbed s (s.modOrder o f) := setOrder_undisturbed s o (h _)

theorem bumpRef_undisturbed (s : State) : Undisturbed s s.bumpRef :=
  .of_fields rfl (fun _ => rfl) (fun _ _ => .refl _) (fun _ => rfl) (fun _ => .refl _) fun _ => .refl _

theorem raise_undisturbed (s : State) (nt : Notice) : Undisturbed s (s.raise nt) :=
  .of_wrote (by decide) (raise_wrote s nt)

theorem writeUnit_undisturbed (s : State) (u : UnitIx) : Undisturbed s (s.writeUnit u) :=
  .of_wrote (by decide) (writeUnit_wrote s u)

theorem writeCounter_undisturbed (s : State) (u : UnitIx) : Undisturbed s (s.writeCounter u) :=
  .of_wrote (by decide) (writeCounter_wrote s u)

theorem writePermit_undisturbed (s : State) (p : PermitIx) : Undisturbed s (s.writePermit p) :=
  .of_wrote (by decide) (writePermit_wrote s p)

theorem writeOrder_undisturbed (s : State) (o : OrderIx) : Undisturbed s (s.writeOrder o) :=
  .of_wrote (by decide) (writeOrder_wrote s o)

theorem tellDue_undisturbed (s : State) (a : Nat) : Undisturbed s (s.tellDue a) := by
  unfold State.tellDue
  split
  · exact modUnit_undisturbed s _ fun x => by constructor <;> rfl
  · exact .refl s

/-- Anything taken in turn over a list. -/
theorem foldl_undisturbed {α : Type} (f : State → α → State) (h : ∀ s a, Undisturbed s (f s a)) (l : List α)
    (s : State) : Undisturbed s (l.foldl f s) := by
  induction l generalizing s with
  | nil => exact .refl s
  | cons a l ih => exact (h s a).trans (ih _)

/-- Anything taken for every index of a table. -/
theorem forAll_undisturbed {n : Nat} (f : Fin n → State → State) (h : ∀ i s, Undisturbed s (f i s)) (s : State) :
    Undisturbed s (forAll f s) :=
  foldl_undisturbed _ (fun s i => h i s) _ s

/-! ## Queues and offers -/

theorem takeBack_queue (p : Port) (ref : Nat) :
    (p.takeBack ref).2 = { p with queue := (p.takeBack ref).2.queue } := rfl

theorem takeBack_sublist (p : Port) (ref : Nat) : (p.takeBack ref).2.queue.Sublist p.queue :=
  List.filter_sublist

theorem withdraw_undisturbed (s : State) (ref : Nat) : Undisturbed s (s.withdraw ref) :=
  forAll_undisturbed _ (fun c s => (setOffer_undisturbed s c _).trans
    (modPort_undisturbed _ c (fun p => takeBack_queue p ref) fun _ => takeBack_sublist _ ref)) s

theorem join_undisturbed (s : State) (c : Chan) (e : TxEntry) : Undisturbed s (s.join c e) :=
  setOffer_undisturbed s c _

theorem modEntry_same (x : UnitCtx) (ref : Nat) (f : OutEntry → OutEntry) : SameUnit x (x.modEntry ref f) := by
  constructor <;> rfl

theorem modEntryOf_undisturbed (s : State) (e : TxEntry) (f : OutEntry → OutEntry) :
    Undisturbed s (s.modEntryOf e f) := by
  unfold State.modEntryOf
  split
  · exact modUnit_undisturbed s _ fun x => modEntry_same x _ f
  · exact .refl s

theorem acceptOffer_undisturbed (s : State) (c : Chan) (it : OfferItem) (h : (s.port c).enabled = true) :
    Undisturbed s (s.acceptOffer c it) :=
  ((setOffer_undisturbed s c _).trans (modPort_undisturbed _ c (fun _ => rfl) fun hn => by
    rw [State.setOffer_port, h] at hn; simp at hn)).trans (modEntryOf_undisturbed _ _ _)

theorem offerFrames_undisturbed (s : State) (c : Chan) (n : Nat) : Undisturbed s (s.offerFrames c n) := by
  induction n generalizing s with
  | zero => exact .refl s
  | succ n ih =>
    unfold State.offerFrames
    split
    · exact .refl s
    · split
      · rename_i ha
        refine (acceptOffer_undisturbed s c _ ?_).trans (ih _)
        unfold Port.accepts at ha
        exact (Bool.and_eq_true _ _ ▸ ha).1
      · exact .refl s

theorem offerChannel_undisturbed (s : State) (c : Chan) : Undisturbed s (s.offerChannel c) :=
  offerFrames_undisturbed s c _

theorem offerAll_undisturbed (s : State) : Undisturbed s s.offerAll :=
  forAll_undisturbed _ (fun c s => offerChannel_undisturbed s c) s

theorem setPlaced_same (d : DueSet) (k : DueKind) (v : Option Placed) :
    (d.setPlaced k v).report = d.report ∧ (d.setPlaced k v).prompt = d.prompt ∧
      (d.setPlaced k v).alarm = d.alarm := by
  cases k <;> exact ⟨rfl, rfl, rfl⟩

theorem unplace_same (d : DueSet) (k : DueKind) (ref : Nat) :
    (d.unplace k ref).report = d.report ∧ (d.unplace k ref).prompt = d.prompt ∧
      (d.unplace k ref).alarm = d.alarm := by
  unfold DueSet.unplace
  split
  · exact setPlaced_same d k none
  · exact ⟨rfl, rfl, rfl⟩

theorem unplaceDue_undisturbed (s : State) (u : UnitIx) (k : DueKind) : Undisturbed s (s.unplaceDue u k) := by
  unfold State.unplaceDue
  split
  · exact (withdraw_undisturbed s _).trans (modDue_undisturbed _ u fun d => setPlaced_same d k none)
  · exact .refl s

theorem unplaceDues_undisturbed (s : State) (u : UnitIx) (ks : List DueKind) :
    Undisturbed s (s.unplaceDues u ks) :=
  foldl_undisturbed _ (fun s k => unplaceDue_undisturbed s u k) ks s

theorem unplaceDueWhere_undisturbed (s : State) (u : UnitIx) (f : Chan → Bool) :
    Undisturbed s (s.unplaceDueWhere u f) := by
  refine foldl_undisturbed _ (fun s k => ?_) _ s
  split
  · split
    · exact unplaceDue_undisturbed s u k
    · exact .refl s
  · exact .refl s

theorem placeDue_undisturbed (s : State) (u : UnitIx) (k : DueKind) (c : Chan) :
    Undisturbed s (s.placeDue u k c) := by
  unfold State.placeDue
  dsimp only
  split
  · exact ((bumpRef_undisturbed s).trans (modDue_undisturbed _ u fun d => setPlaced_same d k _)).trans
      (join_undisturbed _ c _)
  · exact .refl s

theorem placeDues_undisturbed (s : State) (u : UnitIx) (ks : List DueKind) (c : Chan) :
    Undisturbed s (s.placeDues u ks c) :=
  foldl_undisturbed _ (fun s k => placeDue_undisturbed s u k c) ks s

theorem settleFrame_undisturbed (s : State) (e : TxEntry) : Undisturbed s (s.settleFrame e) := by
  unfold State.settleFrame
  split
  · exact .of_fields rfl (fun _ => rfl) (fun _ _ => .refl _) (fun _ => rfl) (fun _ => .refl _) fun _ => .refl _
  · split
    · exact modDue_undisturbed s _ fun d => unplace_same d _ _
    · exact modUnit_undisturbed s _ fun x => modEntry_same x _ _

theorem settleFrames_undisturbed (s : State) (es : List TxEntry) : Undisturbed s (s.settleFrames es) :=
  foldl_undisturbed _ settleFrame_undisturbed es s

/-! ## Permits and orders, as the link engine's messages touch them -/

/-- A step's state changes nothing else of it. -/
theorem setStep_recorded (x : PermitCtx) (k : Nat) (st : StepState) :
    (x.setStep k st).steps.map asRecorded = x.steps.map asRecorded := by
  simp only [PermitCtx.setStep, List.map_map]
  have : ∀ (l : List Step) (i : Nat),
      (l.zipIdx i).map (asRecorded ∘ fun p => if p.2 = k then { p.1 with state := st } else p.1)
        = l.map asRecorded := by
    intro l
    induction l with
    | nil => intro i; rfl
    | cons a l ih =>
      intro i
      simp only [List.zipIdx_cons, List.map_cons, ih, Function.comp_apply]
      split <;> rfl
  exact this _ _

theorem setStep_same (x : PermitCtx) (k : Nat) (st : StepState) : SamePermit x (x.setStep k st) :=
  ⟨rfl, rfl, rfl, rfl, rfl, rfl, rfl, rfl, rfl, setStep_recorded x k st⟩

theorem modPermit_undisturbed (s : State) (p : PermitIx) {f : PermitCtx → PermitCtx}
    (h : SamePermit (s.permit p) (f (s.permit p))) : Undisturbed s (s.modPermit p f) := by
  unfold State.modPermit
  dsimp only
  split
  · exact (setPermit_undisturbed s p h).trans (tellDue_undisturbed _ _)
  · exact setPermit_undisturbed s p h

theorem interlockStep_undisturbed (s : State) (p : PermitIx) (k sect : Nat) (b : Bool) :
    Undisturbed s (s.interlockStep p k sect b) :=
  ((modPermit_undisturbed s p (setStep_same _ _ _)).trans (raise_undisturbed _ _)).trans (writePermit_undisturbed _ _)

theorem permitGiveFrom_undisturbed (s : State) (p : PermitIx) : Undisturbed s (s.permitGiveFrom p).2 := by
  unfold State.permitGiveFrom
  dsimp only
  split
  · exact setPermit_undisturbed s p (by constructor <;> rfl)
  · split
    · exact setPermit_undisturbed s p (by constructor <;> rfl)
    · split
      · exact .refl s
      · split
        · split
          · exact interlockStep_undisturbed s p _ _ _
          · refine (setPermit_undisturbed s p ?_).trans (writePermit_undisturbed _ p)
            exact ⟨rfl, rfl, rfl, rfl, rfl, rfl, rfl, rfl, rfl, setStep_recorded (s.permit p) _ _⟩
        · exact .refl s

theorem permitGiveList_undisturbed (a : Nat) (ps : List PermitIx) (s : State) :
    Undisturbed s (s.permitGiveList a ps).2 := by
  induction ps generalizing s with
  | nil => exact .refl s
  | cons p ps ih =>
    unfold State.permitGiveList
    split
    · have h := permitGiveFrom_undisturbed s p
      split
      · rename_i m s' e; rw [e] at h; exact h
      · rename_i s' e; rw [e] at h; exact h.trans (ih _)
    · exact ih s

theorem orderGive_undisturbed (s : State) (a : Nat) : Undisturbed s (s.orderGive a).2 := by
  unfold State.orderGive
  split
  · rename_i o m x e
    refine setOrder_undisturbed s o ?_
    unfold State.orderNext at e
    split at e
    · simp at e
    · dsimp only at e
      split at e
      · split at e
        · simp only [Option.some.injEq, Prod.mk.injEq] at e
          obtain ⟨rfl, -, rfl⟩ := e
          rfl
        · simp at e
      · split at e
        · simp only [Option.some.injEq, Prod.mk.injEq] at e
          obtain ⟨rfl, -, rfl⟩ := e
          rfl
        · simp at e
  · exact .refl s

theorem giveMessage_undisturbed (s : State) (a : Nat) : Undisturbed s (s.giveMessage a).2 := by
  unfold State.giveMessage
  have h := permitGiveList_undisturbed a (List.finRange 64) s
  split
  · rename_i m s' e
    unfold State.permitGive at e
    rw [e] at h; exact h
  · rename_i s' e
    unfold State.permitGive at e
    rw [e] at h
    exact h.trans (orderGive_undisturbed _ _)

/-- What a confirmation unsent or dropped changes; an acknowledgement of an order's messages changes the order. -/
theorem confirm_undisturbed (s : State) (r : ProducerRef) (c : Confirmation) (hc : c ≠ .acknowledged) :
    Undisturbed s (s.confirm r c) := by
  unfold State.confirm
  have conf : ∀ p, Undisturbed s (s.setPermit p (s.permit p).confirmed) := fun p =>
    setPermit_undisturbed s p (by constructor <;> rfl)
  split
  · rename_i p
    unfold State.confirmHeader
    dsimp only
    split
    · exact absurd rfl hc
    · exact (conf p).trans (modPermit_undisturbed _ _ (by constructor <;> rfl))
    · exact (conf p).trans (modPermit_undisturbed _ _ (by constructor <;> rfl))
    · exact conf p
  · rename_i p id
    unfold State.confirmNote
    dsimp only
    split
    · exact absurd rfl hc
    · exact (conf p).trans (modPermit_undisturbed _ _ (by constructor <;> rfl))
    · exact (conf p).trans (modPermit_undisturbed _ _ (by constructor <;> rfl))
  · rename_i p k
    unfold State.confirmStep
    dsimp only
    split
    · exact ((conf p).trans (modPermit_undisturbed _ _ (setStep_same _ _ _))).trans (writePermit_undisturbed _ _)
    · exact conf p
  · split
    · exact absurd rfl hc
    · exact modOrder_undisturbed s _ fun x => by split <;> rfl
    · exact .refl s
  · split
    · exact absurd rfl hc
    · exact modOrder_undisturbed s _ fun x => by split <;> rfl
    · exact .refl s

theorem confirmAll_undisturbed (s : State) (es : List OutEntry) {c : Confirmation} (hc : c ≠ .acknowledged) :
    Undisturbed s (s.confirmAll es c) :=
  foldl_undisturbed _ (fun s (e : OutEntry) => confirm_undisturbed s e.producer c hc) es s

/-! ## Entries, searches and resyncs -/

theorem requeueEntry_undisturbed (s : State) (u : UnitIx) (c : Chan) (e : OutEntry) :
    Undisturbed s (s.requeueEntry u c e) :=
  (modUnit_undisturbed s u fun x => modEntry_same x _ _).trans (join_undisturbed _ _ _)

theorem requeue_undisturbed (s : State) (u : UnitIx) (f : OutEntry → Bool) : Undisturbed s (s.requeue u f) := by
  unfold State.requeue
  dsimp only
  split
  · exact foldl_undisturbed _ (fun s e => requeueEntry_undisturbed s u _ e) _ s
  · exact modUnit_undisturbed s u fun x => by constructor <;> rfl

theorem pullBack_undisturbed (s : State) (u : UnitIx) : Undisturbed s (s.pullBack u) := by
  unfold State.pullBack
  refine (foldl_undisturbed _ (fun s (e : OutEntry) => withdraw_undisturbed s e.ref) _ s).trans
    (modUnit_undisturbed _ u ?_)
  intro x
  constructor <;> rfl

theorem removeEntries_undisturbed (s : State) (u : UnitIx) (es : List OutEntry) :
    Undisturbed s (s.removeEntries u es) := by
  unfold State.removeEntries
  refine (foldl_undisturbed _ (fun s (e : OutEntry) => withdraw_undisturbed s e.ref) es s).trans
    (modUnit_undisturbed _ u ?_)
  intro x
  constructor <;> rfl

theorem count_same (x : UnitCtx) (k : UnitCounter) : SameUnit x (x.count k) := by constructor <;> rfl

/-- A change made under a condition, or not made. -/
theorem ite_undisturbed (s : State) (c : Prop) [Decidable c] {f : State → State} (h : ∀ s, Undisturbed s (f s)) :
    Undisturbed s (if c then f s else s) := by
  split
  · exact h s
  · exact .refl s

theorem ite_undisturbed' (s : State) (c : Prop) [Decidable c] {f : State → State} (h : ∀ s, Undisturbed s (f s)) :
    Undisturbed s (if c then s else f s) := by
  split
  · exact .refl s
  · exact h s

theorem stopTimer_same (x : UnitCtx) : SameUnit x x.stopTimerIfTrusted := by
  unfold UnitCtx.stopTimerIfTrusted
  split
  · constructor <;> rfl
  · exact .refl x

theorem stopTimerAtRoam_same (x : UnitCtx) : SameUnit x x.stopTimerAtRoam := by
  unfold UnitCtx.stopTimerAtRoam
  split
  · constructor <;> rfl
  · exact .refl x

theorem blindRound_undisturbed (s : State) (u : UnitIx) : Undisturbed s (s.blindRound u) := by
  unfold State.blindRound
  dsimp only
  split
  · split
    · exact (modUnit_undisturbed s u fun x => by constructor <;> rfl).trans (placeDues_undisturbed _ _ _ _)
    · exact .refl s
  · exact .refl s

theorem enterUnreachable_undisturbed (s : State) (u : UnitIx) (b : Bool) :
    Undisturbed s (s.enterUnreachable u b) := by
  unfold State.enterUnreachable
  dsimp only
  refine .trans ?_ (blindRound_undisturbed _ u)
  refine .trans ?_ (ite_undisturbed _ _ (fun s => raise_undisturbed s _))
  refine .trans ?_ (writeUnit_undisturbed _ u)
  refine .trans ?_ (ite_undisturbed' _ _ (fun s => modUnit_undisturbed s u fun x => count_same x _))
  refine .trans ?_ (modDue_undisturbed _ u fun d => ⟨rfl, rfl, rfl⟩)
  refine .trans ?_ (unplaceDues_undisturbed _ u _)
  refine .trans ?_ (modUnit_undisturbed _ u fun x => ?_)
  · refine .trans ?_ (confirmAll_undisturbed _ _ (by decide))
    refine .trans ?_ (modUnit_undisturbed _ u fun x => ?_)
    · refine .trans ?_ (removeEntries_undisturbed _ u _)
      refine modUnit_undisturbed _ u fun x => ?_
      constructor <;> rfl
    · constructor <;> rfl
  · constructor <;> rfl

theorem probeChannel_undisturbed (s : State) (u : UnitIx) (c : Chan) : Undisturbed s (s.probeChannel u c) := by
  unfold State.probeChannel
  refine .trans ?_ (modUnit_undisturbed _ u fun x => ?_)
  · refine .trans ?_ (placeDues_undisturbed _ u _ c)
    refine .trans ?_ (modDue_undisturbed _ u fun d => ⟨rfl, rfl, rfl⟩)
    refine .trans ?_ (unplaceDue_undisturbed _ u .poll)
    refine modUnit_undisturbed _ u fun x => ?_
    constructor <;> rfl
  · constructor <;> rfl

theorem takeUpNext_undisturbed (s : State) (u : UnitIx) : Undisturbed s (s.takeUpNext u) := by
  unfold State.takeUpNext
  dsimp only
  have h := modUnit_undisturbed s u (f := fun x => { x with tried := x.tried ++
    ((s.unit u).searchOrder.filter fun c => !((s.unit u).tried.contains c)).takeWhile fun c => !(s.port c).enabled })
    (fun x => by constructor <;> rfl)
  split
  · exact h.trans (probeChannel_undisturbed _ u _)
  · exact h.trans (enterUnreachable_undisturbed _ u _)

theorem beginSearch_undisturbed (s : State) (u : UnitIx) (o : SearchOrigin) : Undisturbed s (s.beginSearch u o) :=
  ((modUnit_undisturbed s u fun x => by constructor <;> rfl).trans (writeUnit_undisturbed _ u)).trans
    (takeUpNext_undisturbed _ u)

theorem searchMoveOn_undisturbed (s : State) (u : UnitIx) : Undisturbed s (s.searchMoveOn u) := by
  unfold State.searchMoveOn
  split
  · exact ((unplaceDueWhere_undisturbed s u _).trans
      (modUnit_undisturbed _ u fun x => by constructor <;> rfl)).trans (takeUpNext_undisturbed _ u)
  · exact .refl s

theorem enterSearching_undisturbed (s : State) (u : UnitIx) (b : Bool) : Undisturbed s (s.enterSearching u b) := by
  unfold State.enterSearching
  refine .trans ?_ (beginSearch_undisturbed _ u _)
  refine .trans ?_ (raise_undisturbed _ _)
  refine .trans ?_ (modUnit_undisturbed _ u fun x => count_same x _)
  refine .trans ?_ (unplaceDueWhere_undisturbed _ u _)
  refine .trans ?_ (pullBack_undisturbed _ u)
  exact modUnit_undisturbed _ u stopTimer_same

theorem dueSet_undisturbed (s : State) (u : UnitIx) (k : DueKind) : Undisturbed s (s.dueSet u k) := by
  unfold State.dueSet
  dsimp only
  split
  · split
    · exact placeDue_undisturbed s u k _
    · exact .refl s
  · split
    · split
      · exact placeDue_undisturbed s u k _
      · exact .refl s
    · exact .refl s
  · exact blindRound_undisturbed s u
  · split
    · exact beginSearch_undisturbed s u _
    · exact .refl s

/-- RESYNC and POLL set due. REPORT_ONLY is a mark of the uplink side. -/
theorem setDueFlag_undisturbed (s : State) (u : UnitIx) {k : DueKind} (hk : k ≠ .report) :
    Undisturbed s (s.setDueFlag u k) := by
  unfold State.setDueFlag
  refine (modDue_undisturbed s u fun d => ?_).trans (dueSet_undisturbed _ u k)
  cases k <;> first | exact ⟨rfl, rfl, rfl⟩ | exact absurd rfl hk

theorem startResync_undisturbed (s : State) (u : UnitIx) : Undisturbed s (s.startResync u) := by
  unfold State.startResync
  split
  · exact .refl s
  · exact ((((modUnit_undisturbed s u fun x => by constructor <;> rfl).trans (pullBack_undisturbed _ u)).trans
      (modUnit_undisturbed _ u fun x => by constructor <;> rfl)).trans (writeUnit_undisturbed _ u)).trans
      (setDueFlag_undisturbed _ u (by decide))

/-! ## Pulls and the end of a step -/

theorem takeMessage_undisturbed (s : State) (u : UnitIx) (m : Message) : Undisturbed s (s.takeMessage u m) := by
  unfold State.takeMessage
  dsimp only
  split
  · exact ((bumpRef_undisturbed s).trans (modUnit_undisturbed _ u fun x => by constructor <;> rfl)).trans
      (join_undisturbed _ _ _)
  · exact .refl s

theorem pullUpTo_undisturbed (s : State) (u : UnitIx) (n : Nat) : Undisturbed s (s.pullUpTo u n) := by
  induction n generalizing s with
  | zero => exact .refl s
  | succ n ih =>
    unfold State.pullUpTo
    split
    · have h := giveMessage_undisturbed s (s.unit u).address
      split
      · rename_i m s' e
        rw [e] at h
        exact (h.trans (takeMessage_undisturbed _ u m)).trans (ih _)
      · rename_i s' e
        rw [e] at h
        exact h
    · exact .refl s

theorem pull_undisturbed (s : State) (u : UnitIx) : Undisturbed s (s.pull u) := pullUpTo_undisturbed s u _

theorem testUnknown_undisturbed (s : State) (u : UnitIx) : Undisturbed s (s.testUnknown u) := by
  unfold State.testUnknown
  dsimp only
  split
  · exact beginSearch_undisturbed s u _
  · exact .refl s

theorem actOnTold_undisturbed (s : State) (u : UnitIx) : Undisturbed s (s.actOnTold u) := by
  unfold State.actOnTold
  split
  · exact ((modUnit_undisturbed s u fun x => by constructor <;> rfl).trans
      (ite_undisturbed _ _ fun s => testUnknown_undisturbed s u)).trans (pull_undisturbed _ u)
  · exact .refl s

/-- A moment passes (log 9). -/
theorem moment_undisturbed (s : State) (n : Nat) : Undisturbed s { s with ule := { s.ule with moment := n } } :=
  .of_fields rfl (fun _ => rfl) (fun _ _ => .refl _) (fun _ => rfl) (fun _ => .refl _) fun _ => .refl _

/-- The end of a step is the link engine's own activity (R64, R65, R84; log 9). -/
theorem settle_undisturbed (s : State) : Undisturbed s s.settle := by
  unfold State.settle
  refine .trans ?_ (moment_undisturbed _ _)
  refine .trans ?_ (offerAll_undisturbed _)
  exact forAll_undisturbed _ (fun u s => actOnTold_undisturbed s u) s

/-! ## Holes, and channels entering and leaving service -/

theorem closeHole_undisturbed (s : State) (u : UnitIx) (l : List (BitVec 8)) : Undisturbed s (s.closeHole u l) := by
  unfold State.closeHole
  dsimp only
  have hstop : ∀ x : UnitCtx, SameUnit x (if x.out.isEmpty then x.stopTimerIfTrusted else x) := by
    intro x
    split
    · exact stopTimer_same x
    · exact .refl x
  split
  · exact .refl s
  · refine .trans ?_ (modUnit_undisturbed _ u hstop)
    split
    · exact .refl s
    · split
      · exact modUnit_undisturbed s u fun x => by constructor <;> rfl
      · exact startResync_undisturbed s u

theorem withhold_undisturbed (s : State) (o : OrderIx) : Undisturbed s (s.withhold o) := by
  unfold State.withhold
  split
  · exact ((removeEntries_undisturbed s _ _).trans (confirmAll_undisturbed _ _ (by decide))).trans
      (closeHole_undisturbed _ _ _)
  · exact .refl s

theorem revoke_undisturbed (s : State) (u : UnitIx) (r : ProducerRef) : Undisturbed s (s.revoke u r) := by
  unfold State.revoke
  split
  · exact .refl s
  · dsimp only
    refine .trans ?_ (confirm_undisturbed _ r _ (by decide))
    have hstop : ∀ x : UnitCtx, SameUnit x (if x.out.isEmpty then x.stopTimerIfTrusted else x) := by
      intro x
      split
      · exact stopTimer_same x
      · exact .refl x
    split
    · refine .trans ?_ (modUnit_undisturbed _ u hstop)
      split
      · exact (removeEntries_undisturbed s u _).trans (startResync_undisturbed _ u)
      · exact removeEntries_undisturbed s u _
    · exact (removeEntries_undisturbed s u _).trans (closeHole_undisturbed _ _ _)

theorem channelOut_undisturbed (s : State) (c : Chan) : Undisturbed s (s.channelOut c) := by
  unfold State.channelOut
  refine ((setOffer_undisturbed s c _).trans (settleFrames_undisturbed _ _)).trans
    (forAll_undisturbed _ (fun u s => ?_) _)
  dsimp only
  split
  · split
    · exact enterSearching_undisturbed s u _
    · split
      · exact searchMoveOn_undisturbed s u
      · exact .refl s
  · exact .refl s

theorem channelIn_undisturbed (s : State) : Undisturbed s s.channelIn := by
  unfold State.channelIn
  refine forAll_undisturbed _ (fun u s => ?_) s
  dsimp only
  split
  · exact beginSearch_undisturbed s u _
  · exact testUnknown_undisturbed s u

/-! ## Going back, probes and the renewed link -/

theorem goBack_undisturbed (s : State) (u : UnitIx) : Undisturbed s (s.goBack u) :=
  (modUnit_undisturbed s u fun x => by constructor <;> rfl).trans (requeue_undisturbed _ u _)

theorem retry_undisturbed (s : State) (u : UnitIx) : Undisturbed s (s.retry u) := by
  have hr : ∀ x, SameUnit x (UnitCtx.retryOldest x) := by
    intro x
    unfold UnitCtx.retryOldest
    split
    · exact .refl x
    · constructor <;> rfl
  unfold State.retry
  dsimp only
  refine (modUnit_undisturbed s u hr).trans ?_
  split
  · split
    · exact enterSearching_undisturbed _ u false
    · exact .refl _
  · exact (goBack_undisturbed _ u).trans (modUnit_undisturbed _ u fun x => count_same x _)

theorem probeAgain_undisturbed (s : State) (u : UnitIx) : Undisturbed s (s.probeAgain u) := by
  unfold State.probeAgain
  dsimp only
  split
  · split
    · refine .trans ?_ (modUnit_undisturbed _ u fun x => ?_)
      · refine .trans (.trans (unplaceDue_undisturbed s u .poll) (modDue_undisturbed _ u fun d => ?_))
          (placeDue_undisturbed _ u .poll _)
        exact ⟨rfl, rfl, rfl⟩
      · constructor <;> rfl
    · exact searchMoveOn_undisturbed s u
  · exact .refl s

theorem resyncWanted_undisturbed (s : State) (u : UnitIx) : Undisturbed s (s.resyncWanted u) :=
  ite_undisturbed _ _ fun s => startResync_undisturbed s u

theorem renewLink_undisturbed (s : State) (u : UnitIx) (c : Chan) : Undisturbed s (s.renewLink u c) :=
  (placeDues_undisturbed s u _ c).trans (pull_undisturbed _ u)

/-! ## Frames that R137 keeps from starting -/

/-- A frame is kept from starting when it orders an energising step on a section with a hold (R137). -/
theorem frameHeld_iff (s : State) (kind : FrameKind) (payload : List Byte) :
    s.frameHeld kind payload = true ↔
      kind = .permitStep ∧ byteAt payload 8 ≠ 0 ∧ 0 < s.hold (byteAt payload 7).toNat := by
  unfold State.frameHeld energisedSection
  split <;> simp_all

theorem resumeFrames_undisturbed (s : State) (sect : Nat) : Undisturbed s (s.resumeFrames sect) :=
  forAll_undisturbed _ (fun u s => ite_undisturbed s _ fun s => requeue_undisturbed s u _) s

end Sys2Proof.Safety
end

