-- ==== Sys2Proof/Laws/Messages.lean ====
section
/-! SUPPORT. What of the link engine's activity leaves every permit and every outstanding list as it stands: requests that
become due, and the report of done; and what a refusal to the crew and a cancellation make of a permit. -/

namespace Sys2Proof.Safety

open Sys2Proof.Machine

theorem MessagesStand.refl (s : State) : MessagesStand s s := ⟨fun _ => rfl, fun _ => rfl⟩

theorem MessagesStand.trans {s t u : State} (h : MessagesStand s t) (k : MessagesStand t u) : MessagesStand s u :=
  ⟨fun p => (k.permit p).trans (h.permit p), fun b => (k.out b).trans (h.out b)⟩

theorem MessagesStand.of_wrote {rs : List Region} {s t : State} (h : Wrote rs s t) : MessagesStand s t :=
  ⟨h.permit, fun b => by rw [h.unit b]⟩

/-- A change of a unit that keeps its outstanding list. -/
theorem modUnit_stand (s : State) (u : UnitIx) {f : UnitCtx → UnitCtx} (h : (f (s.unit u)).out = (s.unit u).out) :
    MessagesStand s (s.modUnit u f) := by
  refine ⟨fun _ => rfl, fun b => ?_⟩
  rw [State.modUnit_unit]
  split
  · rename_i e; subst e; exact h
  · rfl

theorem modDue_stand (s : State) (u : UnitIx) (f : DueSet → DueSet) : MessagesStand s (s.modDue u f) :=
  modUnit_stand s u rfl

theorem foldl_stand {α : Type} (f : State → α → State) (h : ∀ s a, MessagesStand s (f s a)) (l : List α) (s : State) :
    MessagesStand s (l.foldl f s) := by
  induction l generalizing s with
  | nil => exact .refl s
  | cons a l ih => exact (h s a).trans (ih _)

theorem setOffer_stand (s : State) (c : Chan) (l : List OfferItem) : MessagesStand s (s.setOffer c l) :=
  ⟨fun _ => rfl, fun _ => rfl⟩

theorem modPort_stand (s : State) (c : Chan) (f : Port → Port) : MessagesStand s (s.modPort c f) :=
  ⟨fun _ => rfl, fun _ => rfl⟩

theorem bumpRef_stand (s : State) : MessagesStand s s.bumpRef := ⟨fun _ => rfl, fun _ => rfl⟩

theorem withdraw_stand (s : State) (ref : Nat) : MessagesStand s (s.withdraw ref) := by
  unfold State.withdraw forAll
  exact foldl_stand _ (fun s c => (setOffer_stand s c _).trans (modPort_stand _ c _)) _ s

theorem unplaceDue_stand (s : State) (u : UnitIx) (k : DueKind) : MessagesStand s (s.unplaceDue u k) := by
  unfold State.unplaceDue
  split
  · exact (withdraw_stand s _).trans (modDue_stand _ u _)
  · exact .refl s

theorem placeDue_stand (s : State) (u : UnitIx) (k : DueKind) (c : Chan) : MessagesStand s (s.placeDue u k c) := by
  unfold State.placeDue
  dsimp only
  split
  · exact ((bumpRef_stand s).trans (modDue_stand _ u _)).trans (setOffer_stand _ c _)
  · exact .refl s

theorem placeDues_stand (s : State) (u : UnitIx) (ks : List DueKind) (c : Chan) :
    MessagesStand s (s.placeDues u ks c) :=
  foldl_stand _ (fun s k => placeDue_stand s u k c) ks s

theorem blindRound_stand (s : State) (u : UnitIx) : MessagesStand s (s.blindRound u) := by
  unfold State.blindRound
  dsimp only
  split
  · split
    · exact (modUnit_stand s u rfl).trans (placeDues_stand _ u _ _)
    · exact .refl s
  · exact .refl s

theorem probeChannel_stand (s : State) (u : UnitIx) (c : Chan) : MessagesStand s (s.probeChannel u c) := by
  unfold State.probeChannel
  exact ((((modUnit_stand s u rfl).trans (unplaceDue_stand _ u _)).trans (modDue_stand _ u _)).trans
    (placeDues_stand _ u _ c)).trans (modUnit_stand _ u rfl)

theorem unplaceDues_stand (s : State) (u : UnitIx) (ks : List DueKind) : MessagesStand s (s.unplaceDues u ks) :=
  foldl_stand _ (fun s k => unplaceDue_stand s u k) ks s

/-- A change made under a condition, or not made. -/
theorem ite_stand (s : State) (c : Prop) [Decidable c] {f : State → State} (h : ∀ s, MessagesStand s (f s)) :
    MessagesStand s (if c then f s else s) := by
  split
  · exact h s
  · exact .refl s

theorem ite_stand' (s : State) (c : Prop) [Decidable c] {f : State → State} (h : ∀ s, MessagesStand s (f s)) :
    MessagesStand s (if c then s else f s) := by
  split
  · exact .refl s
  · exact h s

/-- The removal of no entries. -/
theorem removeNone_stand (s : State) (u : UnitIx) : MessagesStand s (s.removeEntries u []) := by
  unfold State.removeEntries
  exact modUnit_stand s u (by simp)

theorem confirmNone_stand (s : State) (c : Confirmation) : MessagesStand s (s.confirmAll [] c) := .refl s

/-- Entry to UNREACHABLE of a unit with nothing outstanding hands nothing back (R86). -/
theorem enterUnreachable_stand (s : State) (u : UnitIx) (b : Bool) (h : (s.unit u).out = []) :
    MessagesStand s (s.enterUnreachable u b) := by
  unfold State.enterUnreachable
  dsimp only
  rw [h]
  refine .trans ?_ (blindRound_stand _ u)
  refine .trans ?_ (ite_stand _ _ (fun s => .of_wrote (raise_wrote s _)))
  refine .trans ?_ (.of_wrote (writeUnit_wrote _ u))
  refine .trans ?_ (ite_stand' _ _ (fun s => modUnit_stand s u rfl))
  refine .trans ?_ (modDue_stand _ u _)
  refine .trans ?_ (unplaceDues_stand _ u _)
  refine .trans ?_ (modUnit_stand _ u rfl)
  refine .trans ?_ (confirmNone_stand _ _)
  refine .trans ?_ (modUnit_stand _ u rfl)
  refine .trans ?_ (removeNone_stand _ u)
  exact modUnit_stand s u rfl

theorem takeUpNext_stand (s : State) (u : UnitIx) (h : (s.unit u).out = []) : MessagesStand s (s.takeUpNext u) := by
  unfold State.takeUpNext
  dsimp only
  split
  · exact (modUnit_stand s u rfl).trans (probeChannel_stand _ u _)
  · exact (modUnit_stand s u rfl).trans (enterUnreachable_stand _ u _ (by simpa using h))

theorem beginSearch_stand (s : State) (u : UnitIx) (o : SearchOrigin) (h : (s.unit u).out = []) :
    MessagesStand s (s.beginSearch u o) := by
  unfold State.beginSearch
  refine ((modUnit_stand s u rfl).trans (.of_wrote (writeUnit_wrote _ u))).trans (takeUpNext_stand _ u ?_)
  rw [(writeUnit_wrote _ u).unit]
  simpa using h

/-- A request set due changes no permit and no outstanding list, for a unit with nothing outstanding while UNKNOWN. -/
theorem dueSet_stand (s : State) (u : UnitIx) (k : DueKind) (h : (s.unit u).reach = .unknown → (s.unit u).out = []) :
    MessagesStand s (s.dueSet u k) := by
  unfold State.dueSet
  dsimp only
  split
  · split
    · exact placeDue_stand s u k _
    · exact .refl s
  · split
    · split
      · exact placeDue_stand s u k _
      · exact .refl s
    · exact .refl s
  · exact blindRound_stand s u
  · rename_i e
    split
    · exact beginSearch_stand s u _ (h e)
    · exact .refl s

/-- The report of done changes no permit and no outstanding list (R59). -/
theorem reportDone_stand (s : State) (u : UnitIx) (ns : BitVec 8) (live : Bool)
    (h : (s.unit u).reach = .unknown → (s.unit u).out = []) : MessagesStand s (s.reportDone u ns live) := by
  unfold State.reportDone State.setDueFlag
  split
  · refine ((modUnit_stand s u rfl).trans (modDue_stand _ u _)).trans (dueSet_stand _ u _ ?_)
    simpa [State.modDue] using h
  · exact .refl s

/-! ## Permits, as the permit machine leaves them -/

theorem tellDue_permit (s : State) (a : Nat) (q : PermitIx) : (s.tellDue a).permit q = s.permit q := by
  unfold State.tellDue
  split <;> rfl

theorem modPermit_permit_same (s : State) (p : PermitIx) (f : PermitCtx → PermitCtx) :
    (s.modPermit p f).permit p = f (s.permit p) := by
  unfold State.modPermit
  dsimp only
  split
  · rw [tellDue_permit, State.setPermit_permit_same]
  · exact State.setPermit_permit_same ..

/-- A refusal to the crew changes the note queue and the last refusal of the permit, and no other field (R118). -/
theorem refuseCrew_permit (w : State) (p : PermitIx) (kind : FrameKind) (why : NoteCode) (step : Nat)
    (alarm : Option (Nat × WorkerState)) :
    let y := w.permit p
    let z := (w.refuseCrew p kind why step alarm).permit p
    NoteQueuedOf y z why step kind.code ∧ z = { y with lastRefusal := some (why, step), notes := z.notes } := by
  have hv : (w.refuseCrew p kind why step alarm).permit p =
      { (w.queueNote p why step kind.code).permit p with lastRefusal := some (why, step) } := by
    unfold State.refuseCrew
    rw [(writePermit_wrote _ p).permit, (raise_wrote _ _).permit, modPermit_permit_same]
  dsimp only
  rw [hv]
  unfold NoteQueuedOf State.queueNote
  split
  · exact ⟨⟨_, by rw [modPermit_permit_same]; rfl⟩, by rw [modPermit_permit_same]; rfl⟩
  · exact ⟨rfl, rfl⟩

/-- The announcement of CANCELLED changes no permit (R103). -/
theorem announceCancelled_permit (s : State) (p q : PermitIx) : (s.announce p .cancelled).permit q = s.permit q := by
  unfold State.announce forAll
  simp only [reduceCtorEq, ↓reduceIte]
  generalize List.finRange 256 = l
  induction l generalizing s with
  | nil => rfl
  | cons o l ih =>
    rw [List.foldl_cons, ih]
    split
    · unfold State.announceTo
      dsimp only
      split
      · unfold State.failOrder; rw [(writeOrder_wrote _ _).permit, (raise_wrote _ _).permit]; rfl
      · unfold State.failOrder; rw [(writeOrder_wrote _ _).permit, (raise_wrote _ _).permit]; rfl
      · unfold State.enterWithdraw; dsimp only; split
        · rw [tellDue_permit]; rfl
        · rfl
      · rfl
    · rfl

/-- Unbinding changes no permit (R128). -/
theorem unbindAll_permit (s : State) (p q : PermitIx) : (s.unbindAll p).permit q = s.permit q := by
  unfold State.unbindAll
  generalize workersNamed _ = l
  induction l generalizing s with
  | nil => rfl
  | cons w l ih =>
    rw [List.foldl_cons, ih]
    split
    · unfold State.setBinding; rw [(writeOpenPermit_wrote _ _).permit]; rfl
    · rfl

end Sys2Proof.Safety
end

