-- ==== Sys2Proof/Laws/Orders.lean ====
section
/-! SUPPORT. What the start of sending, the withdraw path and the announcement of a permit's state leave as they were. -/

namespace Sys2Proof.Safety

open Sys2Proof.Machine

theorem OrdersMoved.of_undisturbed {s t : State} (h : Undisturbed s t) : OrdersMoved s t :=
  ⟨h.toLinkKept, fun o => by rw [h.order o]⟩

theorem OrdersMoved.refl (s : State) : OrdersMoved s s := .of_undisturbed (.refl s)

theorem OrdersMoved.trans {s t u : State} (h : OrdersMoved s t) (k : OrdersMoved t u) : OrdersMoved s u :=
  ⟨h.toLinkKept.trans k.toLinkKept, fun o => by rw [k.order o, h.order o]⟩

/-- An order set with what it is, its text and its replies as they were. -/
theorem setOrder_moved (s : State) (o : OrderIx) {x : OrderCtx}
    (h : x = { s.order o with
      state := x.state, deadline := x.deadline, segSize := x.segSize, segCount := x.segCount, nextSeg := x.nextSeg,
      acked := x.acked, cancelling := x.cancelling, cancel := x.cancel, failure := x.failure }) :
    OrdersMoved s (s.setOrder o x) where
  toLinkKept := ⟨rfl, rfl, rfl, rfl, rfl, rfl, rfl, rfl, fun _ => rfl, fun _ _ => .refl _, fun _ => .refl _, fun _ => .refl _, .refl _,
    .of_mem_eq rfl⟩
  order q := by
    rw [State.setOrder_order]
    split
    · rename_i e; subst e; exact h
    · rfl

theorem foldl_moved {α : Type} (f : State → α → State) (h : ∀ s a, OrdersMoved s (f s a)) (l : List α)
    (s : State) : OrdersMoved s (l.foldl f s) := by
  induction l generalizing s with
  | nil => exact .refl s
  | cons a l ih => exact (h s a).trans (ih _)

theorem forAll_moved {n : Nat} (f : Fin n → State → State) (h : ∀ i s, OrdersMoved s (f i s)) (s : State) :
    OrdersMoved s (forAll f s) :=
  foldl_moved _ (fun s i => h i s) _ s

theorem enterSending_moved (s : State) (o : OrderIx) : OrdersMoved s (s.enterSending o) := by
  unfold State.enterSending
  refine .trans ?_ (.of_undisturbed (writeOrder_undisturbed _ o))
  refine .trans ?_ (.of_undisturbed (tellDue_undisturbed _ _))
  exact setOrder_moved s o rfl

theorem startSending_moved (s : State) (a : Nat) : OrdersMoved s (s.startSending a) := by
  unfold State.startSending
  split
  · split
    · exact enterSending_moved s _
    · exact .refl s
  · exact .refl s

theorem startSendingAll_moved (s : State) : OrdersMoved s s.startSendingAll := by
  unfold State.startSendingAll
  refine forAll_moved _ (fun u s => ?_) s
  split
  · exact startSending_moved s _
  · exact .refl s

theorem failOrder_moved (s : State) (o : OrderIx) (r : FailReason) : OrdersMoved s (s.failOrder o r) := by
  unfold State.failOrder
  refine .trans ?_ (.of_undisturbed (writeOrder_undisturbed _ o))
  refine .trans ?_ (.of_undisturbed (raise_undisturbed _ _))
  exact setOrder_moved s o rfl

theorem enterWithdraw_moved (s : State) (o : OrderIx) (e : EndState) : OrdersMoved s (s.enterWithdraw o e) := by
  unfold State.enterWithdraw
  dsimp only
  split
  · exact (setOrder_moved s o rfl).trans (.of_undisturbed (tellDue_undisturbed _ _))
  · exact .refl s

/-- What a permit's transition does to one order (R103). -/
theorem announceTo_moved (s : State) (st : PermitState) (o : OrderIx) : OrdersMoved s (s.announceTo st o) := by
  unfold State.announceTo
  dsimp only
  split
  · split
    · exact (setOrder_moved s o rfl).trans (.of_undisturbed (writeOrder_undisturbed _ o))
    · exact .of_undisturbed (tellDue_undisturbed _ _)
    · exact .refl s
  · split
    · exact (setOrder_moved s o rfl).trans (.of_undisturbed (writeOrder_undisturbed _ o))
    · exact .of_undisturbed (withhold_undisturbed s o)
    · exact .refl s
  all_goals first
    | exact .refl s
    | (split
       · exact failOrder_moved s o _
       · exact failOrder_moved s o _
       · exact enterWithdraw_moved s o _
       · exact .refl s)

/-- What a permit's transition does to the orders (R103, R129). -/
theorem announce_moved (s : State) (p : PermitIx) (st : PermitState) : OrdersMoved s (s.announce p st) := by
  unfold State.announce
  have h1 : OrdersMoved s (forAll (fun o s => if (s.order o).names p then s.announceTo st o else s) s) := by
    refine forAll_moved _ (fun o s => ?_) s
    split
    · exact announceTo_moved s st o
    · exact .refl s
  dsimp only
  split
  · refine h1.trans (forAll_moved _ (fun o s => ?_) _)
    split
    · exact startSending_moved s _
    · exact .refl s
  · exact h1

/-- A transition with no effect on orders (R129). -/
theorem announce_quiet (s : State) (p : PermitIx) {st : PermitState}
    (h : st = .free ∨ st = .posted ∨ st = .issued ∨ st = .active) : s.announce p st = s := by
  have hto : ∀ (s : State) o, s.announceTo st o = s := by
    intro s o
    rcases h with rfl | rfl | rfl | rfl <;> rfl
  have hf : ∀ (l : List OrderIx) (s : State),
      l.foldl (fun s o => if (s.order o).names p then s.announceTo st o else s) s = s := by
    intro l
    induction l with
    | nil => intro s; rfl
    | cons o l ih =>
      intro s
      rw [List.foldl_cons, hto, ite_self]
      exact ih s
  unfold State.announce forAll
  rw [hf]
  have hne : st ≠ .holding := by rcases h with rfl | rfl | rfl | rfl <;> decide
  simp [hne]

end Sys2Proof.Safety
end

