-- ==== Sys2Proof/Laws/PerInstr.lean ====
section
/-! SUPPORT. A command is ill-formed for two reasons only: a server store outside the host's 32-bit addresses, or a
register value that carries a command where the row says it carries none. One lemma for each constructor of Instr. -/

namespace Sys2Proof.Laws.Shape

open Sys2Proof.Safety

/-- A command whose server stores go to addresses of 32 bits, and whose register value carries no command when it is a
write that is ignored, is well formed. -/
def Statement (i : Instr) : Prop :=
  storesInRange (storesOf i) = true →
    (∀ g v stores, i = .registerWriteIgnored g v stores → g.carriesNoCommand v = true) → i.wellFormed = true

theorem powerOn (carrier0 carrier1 carrier2 carrier3 : Bool) :
    Statement (.powerOn carrier0 carrier1 carrier2 carrier3) := fun _ _ => rfl
theorem start (stores : List Host.Cell) : Statement (.start stores) := fun h _ => h
theorem halt : Statement .halt := fun _ _ => rfl
theorem reset : Statement .reset := fun _ _ => rfl
theorem registerWriteIgnored (register : ControlRegister) (value : BitVec 32) (stores : List Host.Cell) :
    Statement (.registerWriteIgnored register value stores) := by
  intro h g
  simp only [Instr.wellFormed, Bool.and_eq_true]
  exact ⟨g register value stores rfl, h⟩
theorem xbaseWrite (value : BitVec 32) : Statement (.xbaseWrite value) := fun _ _ => rfl
theorem postHandover (value : BitVec 32) (stores : List Host.Cell) :
    Statement (.postHandover value stores) := fun h _ => h
theorem take : Statement .take := fun _ _ => rfl
theorem noteRead : Statement .noteRead := fun _ _ => rfl
theorem unitRegister : Statement .unitRegister := fun _ _ => rfl
theorem unitRelease : Statement .unitRelease := fun _ _ => rfl
theorem unitResync : Statement .unitResync := fun _ _ => rfl
theorem unitRekey : Statement .unitRekey := fun _ _ => rfl
theorem workerOn : Statement .workerOn := fun _ _ => rfl
theorem workerOff : Statement .workerOff := fun _ _ => rfl
theorem alarmAck : Statement .alarmAck := fun _ _ => rfl
theorem alarmClear : Statement .alarmClear := fun _ _ => rfl
theorem orderPost : Statement .orderPost := fun _ _ => rfl
theorem orderWithdraw : Statement .orderWithdraw := fun _ _ => rfl
theorem bulletin : Statement .bulletin := fun _ _ => rfl
theorem permitIssue : Statement .permitIssue := fun _ _ => rfl
theorem permitCancel : Statement .permitCancel := fun _ _ => rfl
theorem permitSurrenderLocal : Statement .permitSurrenderLocal := fun _ _ => rfl
theorem permitAcceptSurrender : Statement .permitAcceptSurrender := fun _ _ => rfl
theorem permitRefuseSurrender : Statement .permitRefuseSurrender := fun _ _ => rfl
theorem channelSet : Statement .channelSet := fun _ _ => rfl
theorem channelEnable : Statement .channelEnable := fun _ _ => rfl
theorem channelDisable : Statement .channelDisable := fun _ _ => rfl
theorem channelReset : Statement .channelReset := fun _ _ => rfl
theorem badVerb : Statement .badVerb := fun _ _ => rfl
theorem carrierUp (chan : Chan) : Statement (.carrierUp chan) := fun _ _ => rfl
theorem carrierDown (chan : Chan) : Statement (.carrierDown chan) := fun _ _ => rfl
theorem frameReceived (chan : Chan) (frame : List Byte) : Statement (.frameReceived chan frame) := fun _ _ => rfl
theorem receiveChecks (chan : Chan) : Statement (.receiveChecks chan) := fun _ _ => rfl
theorem txDone (chan : Chan) : Statement (.txDone chan) := fun _ _ => rfl
theorem modemAlert (chan : Chan) : Statement (.modemAlert chan) := fun _ _ => rfl
theorem creditSlotExpiry (chan : Chan) : Statement (.creditSlotExpiry chan) := fun _ _ => rfl
theorem txDoneWatchdogExpiry (chan : Chan) : Statement (.txDoneWatchdogExpiry chan) := fun _ _ => rfl
theorem carrierStuckExpiry (chan : Chan) : Statement (.carrierStuckExpiry chan) := fun _ _ => rfl
theorem frameStart (chan : Chan) : Statement (.frameStart chan) := fun _ _ => rfl
theorem uplinkFrame (chan : Chan) : Statement (.uplinkFrame chan) := fun _ _ => rfl
theorem counterWriteBackComplete (unit : UnitIx) : Statement (.counterWriteBackComplete unit) := fun _ _ => rfl
theorem retransmissionTimerExpiry (unit : UnitIx) : Statement (.retransmissionTimerExpiry unit) := fun _ _ => rfl
theorem resyncReplyWaitExpiry (unit : UnitIx) : Statement (.resyncReplyWaitExpiry unit) := fun _ _ => rfl
theorem searchTimerProbeExpiry (unit : UnitIx) : Statement (.searchTimerProbeExpiry unit) := fun _ _ => rfl
theorem searchIntervalExpiry (unit : UnitIx) : Statement (.searchIntervalExpiry unit) := fun _ _ => rfl
theorem promptTime (worker : WorkerIx) : Statement (.promptTime worker) := fun _ _ => rfl
theorem deadline (worker : WorkerIx) : Statement (.deadline worker) := fun _ _ => rfl
theorem graceExpiry (worker : WorkerIx) : Statement (.graceExpiry worker) := fun _ _ => rfl
theorem escalationExpiry (worker : WorkerIx) : Statement (.escalationExpiry worker) := fun _ _ => rfl
theorem orderExpiry (order : OrderIx) : Statement (.orderExpiry order) := fun _ _ => rfl
theorem periodicStatusWrite : Statement .periodicStatusWrite := fun _ _ => rfl
theorem busAccessTimeout (access : BusAccess) (again : Bool) :
    Statement (.busAccessTimeout access again) := fun _ _ => rfl
theorem haltComplete : Statement .haltComplete := fun _ _ => rfl

end Sys2Proof.Laws.Shape
end

