-- ==== Sys2Proof/Laws/Posting.lean ====
section
/-! SUPPORT. What a verb command does once its block has answered, and notices as they stand after they are raised. -/

namespace Sys2Proof.Safety

open Sys2Proof.Machine

/-! ## Modes -/

theorem busOn_of_takesVerbs {m : PartMode} (h : m.takesVerbs = true) : m.busOn = true := by
  cases m <;> first | rfl | (simp [PartMode.takesVerbs] at h)

/-- A page in progress is one in a mode that takes verbs. -/
theorem frontEntry_takes {s : State} {r : PageRun} {e : PostingEntry} (h : s.frontEntry = some (r, e)) :
    s.xif.mode.takesVerbs = true ∧ s.xif.consuming = some r ∧ e = s.postingEntry r.page r.next := by
  unfold State.frontEntry at h
  split at h
  · rename_i hm
    simp only [Option.map_eq_some_iff, Prod.mk.injEq] at h
    obtain ⟨q, hq, rfl, rfl⟩ := h
    exact ⟨hm, hq, rfl⟩
  · simp at h

theorem Posted.busOn {s : State} {code : Nat} {r : PageRun} {e : PostingEntry} (h : Posted s code r e) :
    s.xif.mode.busOn = true := busOn_of_takesVerbs (frontEntry_takes h.1).1

/-! ## Verbs -/

/-- Reading fields where no timeout is announced goes straight to the body. -/
theorem readingFields_plain {s : State} (hp : s.xif.busPlan = []) (hm : s.xif.mode.busOn = true) (r : Region)
    (n : Nat) (body : State → VerbOutcome × State) :
    s.readingFields r n body = (some (body s).1, (body s).2) := by
  unfold State.readingFields
  rw [readAccesses_plain hp]
  simp [hm]

theorem atIndex_some {s : State} {n i : Nat} {k : Fin n} (h : indexIn n i = some k)
    (body : Fin n → State → VerbResult) : s.atIndex n i body = body k s := by
  unfold State.atIndex
  rw [h]

theorem atIndex_none {s : State} {n i : Nat} (h : n ≤ i) (body : Fin n → State → VerbResult) :
    s.atIndex n i body = (some .badIndex, s) := by
  unfold State.atIndex indexIn
  rw [dif_neg (by omega)]

/-- A verb command of the entry's own verb ends with the engine's activity and its outcome (R182). -/
theorem takeVerb_posted {s t : State} {code : Nat} {r : PageRun} {e : PostingEntry} {o : VerbOutcome}
    (h : Posted s code r e) {codes : Nat → Bool} (hc : codes code = true)
    {body : PostingEntry → State → VerbResult} (hb : body e s = (some o, t)) :
    s.takeVerb codes body = t.settle.finishEntry r o := by
  unfold State.takeVerb
  rw [h.1]
  dsimp only
  rw [if_pos (by rw [h.2.1]; exact hc), access_plain h.2.2, if_pos h.busOn, hb]

/-- The form in which a verb's answer is shown: what its block answers, and what is said of the state it leaves. -/
theorem verb_answers {c : Instr} {s t : State} {r : PageRun} {o : VerbOutcome} {said : State → Prop} {code : Nat}
    {e : PostingEntry} (h : Posted s code r e) {codes : Nat → Bool} {body : PostingEntry → State → VerbResult}
    (hx : exec c s = .next (s.takeVerb codes body)) (hc : codes code = true) {p : VerbOutcome × State}
    (hb : body e s = (some p.1, p.2)) (ht : p = (o, t)) (hs : said t) : VerbAnswers c s r o said :=
  ⟨t, hs, by subst ht; rw [hx, takeVerb_posted h hc hb]⟩

/-- The form in which a refusal is shown. -/
theorem verb_refused {c : Instr} {s : State} {r : PageRun} {o : VerbOutcome} {code : Nat} {e : PostingEntry}
    (h : Posted s code r e) {codes : Nat → Bool} {body : PostingEntry → State → VerbResult}
    (hx : exec c s = .next (s.takeVerb codes body)) (hc : codes code = true) {p : VerbOutcome × State}
    (hb : body e s = (some p.1, p.2)) (ht : p = (o, s)) : VerbRefused c s r o := by
  subst ht; unfold VerbRefused; rw [hx, takeVerb_posted h hc hb]

/-! ## Notices -/

/-- A field written reads as written, where host memory answers. -/
theorem writeField_plain {s : State} (hp : s.xif.busPlan = []) (hm : s.xif.mode.busOn = true) (r : Region)
    (off : Nat) (bs : List Byte) :
    s.writeField r off bs = { s with mem := s.mem.writeBytes (s.areaAddr r off) bs } := by
  unfold State.writeField
  rw [if_pos hm, access_plain hp]
  dsimp only
  rw [if_pos hm]

/-- A notice raised stands as raised (R184). -/
theorem raise_tells (s : State) (nt : Notice) : NoticeAt s (s.raise nt) nt := by
  intro hm hp hc hn
  unfold State.raise
  rw [if_pos hm, if_pos hn]
  dsimp only
  rw [writeField_plain hp hm]
  dsimp only
  rw [if_pos hm]
  refine ⟨Nat.lt_succ_self _, ?_, ?_⟩
  · have := Memory.readBytes_writeBytes hc
      (s.areaAddr s.xif.filling.noticeRegion (16 * (s.xif.notices + 1))) (nt.bytes s.second)
    rw [noticeBytes_length] at this
    exact this
  · generalize nt.cls = k
    cases k <;> simp [Xif.setPending, NoticeClass.ix]

/-- It stands there whatever is written and raised after it. -/
theorem NoticeAt.later {s t u : State} {nt : Notice} {rs : List Region} (h : NoticeAt s t nt)
    (hx : XifKept s.xif t.xif) (kx : XifKept t.xif u.xif) (km : MemKept rs t u) : NoticeAt s u nt := by
  intro hm hp hc hn
  obtain ⟨h1, h2, h3⟩ := h hm hp hc hn
  refine ⟨Nat.lt_of_lt_of_le h1 kx.noticesKept.1, ?_, ?_⟩
  · rw [← h2]
    simp only [State.fieldBytes, Memory.readBytes]
    apply List.map_congr_left
    intro i hi
    have hi : i < 16 := List.mem_range.mp hi
    have := km.raised (16 * (s.xif.notices + 1) + i) (by omega) (by omega) (by omega)
    rw [hx.filling] at this
    have e : ∀ v : State, v.areaAddr s.xif.filling.noticeRegion (16 * (s.xif.notices + 1) + i)
        = v.areaAddr s.xif.filling.noticeRegion (16 * (s.xif.notices + 1)) + i := by
      intro v; unfold State.areaAddr; omega
    rw [areaAddr_kept kx, ← e t, this]
  · have := kx.pendingKept
    rw [← this, BitVec.getLsbD_and, Bool.and_eq_true] at h3
    exact h3.2

end Sys2Proof.Safety
end

