-- ==== Sys2Proof/Laws/Settings.lean ====
section
/-! SUPPORT. Values brought into range and what is logged of them, the lookup of a unit by its address, and the tests of
a permit record in the words of the manual. -/

namespace Sys2Proof.Safety

open Sys2Proof.Machine

/-! ## Clamping (00_scope, section 4) -/

theorem clampTo_fst (src : ClampSource) (k lo hi v : Nat) : (clampTo src k lo hi v).1 = max lo (min hi v) := rfl

theorem clampOrDefault_fst (src : ClampSource) (k lo hi dflt v : Nat) :
    (clampOrDefault src k lo hi dflt v).1 = if v = 0 then dflt else max lo (min hi v) := by
  unfold clampOrDefault
  split <;> rfl

/-- A replacement is logged exactly when the value lies outside its range. -/
theorem clampTo_log (src : ClampSource) {k lo hi v : Nat} (h : lo ≤ hi) :
    (clampTo src k lo hi v).2 = if v < lo ∨ hi < v then
      [{ source := src, setting := k, found := v, used := max lo (min hi v) }] else [] := by
  unfold clampTo
  dsimp only
  split <;> split <;> first | rfl | (exfalso; omega)

theorem clampOrDefault_log (src : ClampSource) {k lo hi dflt v : Nat} (h : lo ≤ hi) :
    (clampOrDefault src k lo hi dflt v).2 = if v ≠ 0 ∧ (v < lo ∨ hi < v) then
      [{ source := src, setting := k, found := v, used := max lo (min hi v) }] else [] := by
  unfold clampOrDefault
  split
  · rename_i hv; simp [hv]
  · rename_i hv; rw [clampTo_log src h]; simp [hv]

/-! ## Units by address (R54) -/

theorem unitOf_eq_none {s : State} {a : Nat} :
    s.unitOf a = none ↔ ∀ v, (s.unit v).registered = true → (s.unit v).address ≠ a := by
  unfold State.unitOf
  rw [List.find?_eq_none]
  simp [List.mem_finRange]

theorem unitOf_isSome {s : State} {a : Nat} :
    (s.unitOf a).isSome = true ↔ ∃ v, (s.unit v).registered = true ∧ (s.unit v).address = a := by
  unfold State.unitOf
  rw [List.find?_isSome]
  simp [List.mem_finRange]

theorem unitOf_spec {s : State} {a : Nat} {u : UnitIx} (h : s.unitOf a = some u) :
    (s.unit u).registered = true ∧ (s.unit u).address = a := by
  have := List.find?_some h
  simpa using this

/-- Who holds an address depends on the units' identities alone. -/
theorem unitOf_congr {s t : State}
    (h : ∀ u, (t.unit u).registered = (s.unit u).registered ∧ (t.unit u).address = (s.unit u).address) (a : Nat) :
    t.unitOf a = s.unitOf a := by
  unfold State.unitOf
  congr 1
  funext u
  rw [(h u).1, (h u).2]

theorem LinkKept.unitOf {s t : State} (h : LinkKept s t) (a : Nat) : t.unitOf a = s.unitOf a :=
  unitOf_congr (fun u => ⟨(h.unit u).registered, (h.unit u).address⟩) a

theorem LinkKept.unitNamed {s t : State} (h : LinkKept s t) (a : Option Nat) : t.unitNamed a = s.unitNamed a := by
  cases a
  · rfl
  · exact h.unitOf _

theorem Wrote.unitNamed {rs : List Region} {s t : State} (h : Wrote rs s t) (a : Option Nat) :
    t.unitNamed a = s.unitNamed a := by
  cases a
  · rfl
  · exact unitOf_congr (fun u => by rw [h.unit]; exact ⟨rfl, rfl⟩) _

/-! ## Permit records (R110, R113) -/

theorem distinct_iff (l : List Nat) : distinct l = true ↔ l.Nodup := by
  induction l with
  | nil => simp [distinct]
  | cons a l ih => simp [distinct, ih]

theorem permitMalformed_iff (h : PermitHost) : h.malformed = true ↔ PermitMalformed h := by
  have d : ∀ l : List Nat, distinct l = false ↔ ¬ l.Nodup := by
    intro l; rw [← distinct_iff]; simp
  unfold PermitHost.malformed PermitMalformed
  simp only [Bool.or_eq_true, beq_iff_eq, decide_eq_true_eq, Bool.not_eq_true', d, List.any_eq_true,
    Step.isEnergising, bne_iff_ne, or_assoc]

theorem indexIn_eq {n i : Nat} {k : Fin n} : indexIn n i = some k ↔ i = k.val := by
  unfold indexIn
  split
  · rw [Option.some.injEq]
    constructor
    · rintro rfl; rfl
    · rintro rfl; rfl
  · constructor
    · intro h; simp at h
    · rintro rfl; exact absurd k.isLt (by assumption)

theorem mem_workersNamed {l : List Nat} {w : WorkerIx} : w ∈ workersNamed l ↔ w.val ∈ l := by
  unfold workersNamed
  rw [List.mem_filterMap]
  constructor
  · rintro ⟨n, hn, h⟩
    rw [indexIn_eq] at h
    exact h ▸ hn
  · intro h
    exact ⟨w.val, h, indexIn_eq.2 rfl⟩

/-- A binding changes, and the worker's open-permit byte with it (R171). -/
theorem setBinding_worker (s : State) (v : WorkerIx) (b : Option PermitIx) (w : WorkerIx) :
    (s.setBinding v b).worker w = if w = v then { s.worker v with openPermit := b } else s.worker w := by
  unfold State.setBinding State.modWorker
  rw [(writeOpenPermit_wrote _ v).worker, State.setWorker_worker]
  simp only [eq_comm]

/-- Every worker of a list is bound to the permit, and no other worker changes (R114). -/
theorem bindAll_worker (p : PermitIx) (ws : List WorkerIx) (s : State) (w : WorkerIx) :
    (s.bindAll p ws).worker w =
      { s.worker w with openPermit := if w ∈ ws then some p else (s.worker w).openPermit } := by
  unfold State.bindAll
  induction ws generalizing s with
  | nil => rfl
  | cons v ws ih =>
    rw [List.foldl_cons, ih]
    split
    · rename_i h
      by_cases e : w = v
      · subst e; simp [h]
      · simp [e]
    · rw [setBinding_worker]
      by_cases e : w = v
      · subst e; simp
      · simp [e]

/-- The permit's workers are unbound from it, and no other worker changes (R128). -/
theorem unbindAll_worker (s : State) (p : PermitIx) (w : WorkerIx) :
    (s.unbindAll p).worker w = { s.worker w with
      openPermit := if w.val ∈ (s.permit p).workers ∧ (s.worker w).openPermit = some p then none
        else (s.worker w).openPermit } := by
  unfold State.unbindAll
  have h : ∀ (ws : List WorkerIx) (s : State),
      (ws.foldl (fun s v => if (s.worker v).openPermit = some p then s.setBinding v none else s) s).worker w =
        { s.worker w with openPermit := if w ∈ ws ∧ (s.worker w).openPermit = some p then none
            else (s.worker w).openPermit } := by
    intro ws
    induction ws with
    | nil => intro s; simp
    | cons v ws ih =>
      intro s
      rw [List.foldl_cons, ih]
      split
      · rename_i hb
        rw [setBinding_worker]
        by_cases e : w = v
        · subst e; simp [hb]
        · simp [e]
      · rename_i hb
        by_cases e : w = v
        · subst e; simp [hb]
        · simp [e]
  rw [h]
  simp only [mem_workersNamed]

end Sys2Proof.Safety
end

