-- ==== Sys2Proof/Laws/Workers.lean ====
section
/-! SUPPORT. Entry to OVERDUE, the heard event and the check-in of the Lone Worker Supervisor, in the terms the statements use. -/

namespace Sys2Proof.Safety

open Sys2Proof.Machine

theorem enterOverdue_eq (s : State) (w : WorkerIx) : s.enterOverdue w = enteredOverdue w s := rfl

/-- Entry to OVERDUE writes a notice and the worker's record, and changes that worker alone (R162). -/
theorem enteredOverdue_wrote (w : WorkerIx) (s : State) :
    Wrote [.noticeA, .noticeB, .workers]
      (s.setWorker w { s.worker w with
        state := .overdue, origin := .overdue, dutyBefore := true, noteUnit := (s.worker w).bound,
        timer := some (s.second + (s.worker w).escalation * 60), escCount := 0 })
      (enteredOverdue w s) :=
  ((raise_wrote _ _).mono (by decide)).trans ((writeWorker_wrote _ w).mono (by decide))

/-- A unit was heard: its SILENT workers enter OVERDUE, in index order (R161). -/
theorem workersHeard_eq (s : State) (a : Nat) :
    s.workersHeard a = (List.finRange 192).foldl
      (fun v i => if (v.worker i).state = .silent ∧ (v.worker i).bound = some a then enteredOverdue i v else v) s := rfl

/-- A check-in does what Table 9-4 gives for the worker's state (R163). -/
theorem checkIn_checkedIn (s : State) (w : WorkerIx) : CheckedIn s (s.checkIn w) w := by
  refine ⟨?_, ?_, ?_, ?_⟩
  · rintro (h | h | ⟨h, h'⟩) <;> simp only [State.checkIn, h]
    simp only [h', if_true]
  · intro h
    simp only [State.checkIn, h, WorkerCtx.newInterval]
  · intro h
    have k : s.checkIn w = ((s.withdrawPrompt w).setWorker w
        (WorkerCtx.newInterval { s.worker w with lastCheckin := some s.second } s.second)).writeWorker w := by
      simp only [State.checkIn, h]
    rw [k]
    cases e : s.unitNamed (s.worker w).bound <;> simp only [State.withdrawPrompt, e, WorkerCtx.newInterval]
  · intro h he
    simp only [List.mem_cons, List.not_mem_nil, or_false] at h
    rcases h with h | h | h | h <;> simp only [State.checkIn, h, WorkerCtx.newInterval]
    rw [if_neg fun e => he (.inr ⟨h, e⟩)]

/-- Table 9-4 leaves no state of a worker open: what it gives is what a check-in does (R163). -/
theorem checkedIn_eq {s t : State} {w : WorkerIx} (h : CheckedIn s t w) : t = s.checkIn w := by
  have k := checkIn_checkedIn s w
  by_cases he : (s.worker w).state = .emergency ∨ ((s.worker w).state = .acknowledged ∧ (s.worker w).origin = .emergency)
  · exact (h.1 (.inr he)).trans (k.1 (.inr he)).symm
  · cases e : (s.worker w).state with
    | off => exact (h.1 (.inl e)).trans (k.1 (.inl e)).symm
    | onDuty => exact (h.2.1 e).trans (k.2.1 e).symm
    | prompted => exact (h.2.2.1 e).trans (k.2.2.1 e).symm
    | emergency => exact absurd (.inl e) he
    | silent | overdue | escalated | acknowledged =>
      exact (h.2.2.2 (by rw [e]; decide) he).trans (k.2.2.2 (by rw [e]; decide) he).symm

end Sys2Proof.Safety
end

