-- ==== Sys2Proof/Tests/Slice0.lean ====
section
/-! SUPPORT. The model's own tests: ill-formed commands, the worked cases of the manual, one small step of each command,
and for each statement a state that meets its hypotheses. Expected values are the manual's. -/

set_option Elab.async false

namespace Sys2Proof.Tests

open Sys2Proof.Machine Sys2Proof.Safety

/-! ## Small states -/

/-- The state a command leaves. -/
def run (c : Instr) (s : State) : State :=
  match exec c s with
  | .next t => t
  | .fault _ => s
  | .refused _ => s

/-- The part RUNNING at second 90 with posting page A in progress, two entries long. -/
def up : State :=
  { State.reset with
    ule := { window := 4, ahead := 7, behind := 32, retryLimit := 4, probesPerSite := 2, searchInterval := 5,
             nextRef := 10, moment := 3 }
    lws := { State.reset.lws with coverage := 10 }
    pen := { State.reset.pen with cw := 3 }
    xif := { Xif.reset with
      xbase := 1, mode := .running, clockOn := true, clock := 90000000, nextPeriodic := 120, postA := .part,
      consuming := some { page := .a, count := 2, next := 0, notDone := 0 } } }

/-- Bytes the server has stored in a region of the exchange area. -/
def stored (s : State) (r : Region) (off : Nat) (bs : List Byte) : State :=
  { s with mem := s.mem.writeBytes (s.areaAddr r off) bs }

/-- A state in which the entry reached holds a verb code and an index (Table 11-4). -/
def asked (s : State) (verb index : Nat) : State :=
  stored s .postingA 0 [byteOf verb, 0, byteOf (index / 256), byteOf index]

/-- The part has reached an entry with a verb code and an index, and no timeout is ahead. -/
def reached (s : State) (verb index : Nat) : Bool :=
  match s.frontEntry with
  | some (_, e) => e.verb == verb && e.index == index && s.xif.busPlan.isEmpty
  | none => false

/-- What `reached` says, in the words of the statements. -/
theorem reached_posted {s : State} {verb index : Nat} (h : reached s verb index = true) :
    ∃ r e, Posted s verb r e ∧ e.index = index := by
  unfold reached at h
  split at h
  · rename_i r e hf
    simp only [Bool.and_eq_true, beq_iff_eq, List.isEmpty_iff] at h
    exact ⟨r, e, ⟨hf, h.1.1, h.2⟩, h.1.2⟩
  · simp at h

/-- The outcome byte of the first entry of page A. -/
def outcome (s : State) : Byte := s.mem.read (s.areaAddr .postingA 1)

/-- The last notice on page A: its class and kind, record index, and first detail byte. -/
def lastNotice (s : State) : List Byte :=
  [s.mem.read (s.areaAddr .noticeA (16 * s.xif.notices)), s.mem.read (s.areaAddr .noticeA (16 * s.xif.notices + 1)),
   s.mem.read (s.areaAddr .noticeA (16 * s.xif.notices + 5))]

/-- Channel 1 of Table 2-5: rate 4800, preamble 200, TOT 400, with D 25 and C_max 80 as in section 2.3.1. -/
def site1 : ChannelSettings :=
  { rate := 0, preamble := 200, tot := 400, duty := 25, cmax := 80, replyWait := 1500, stuckLimit := 10 }

/-- A port in service with those settings. -/
def idlePort : Port :=
  { Port.off false .unkey with
    settings := some site1, lmax := some 46, credit := 80, state := .idle, slotTimer := some 90005000 }

/-- Unit 7, REACHABLE on channel 1. -/
def unit7 : UnitCtx :=
  { UnitCtx.unregistered with
    registered := true, address := 7, reach := .reachable, current := some 1, key := [1, 2, 3, 4, 5, 6, 7, 8] }

/-- The part with channel 1 in service and unit 7 in context 95. -/
def linked : State := (up.setPort 1 idlePort).setUnit 95 unit7

/-- A supervised worker bound to unit 7, with interval 30, lead 5, grace 10 and escalation 2 minutes. -/
def worker7 (st : WorkerState) : WorkerCtx :=
  { WorkerCtx.off with
    state := st, bound := some 7, interval := 30, lead := 5, grace := 10, escalation := 2,
    deadline := some 90, timer := some 90, dutyBefore := true, noteUnit := some 7 }

/-- Worker 191 in a state, its bound unit linked. -/
def watched (st : WorkerState) : State := linked.setWorker 191 (worker7 st)

/-- An order of unit 7 in a state: three segments of 44 bytes at most. -/
def order7 (st : OrderState) : OrderCtx :=
  { OrderCtx.free with
    state := st, unit := 7, bodyLen := 100, body := List.replicate 100 0x41#8, replyWanted := true, stamp := 5,
    segSize := some 44, segCount := some 3, deadline := some 100 }

/-- Order 255 in a state. -/
def ordered (st : OrderState) : State := linked.setOrder 255 (order7 st)

/-- The step of a permit. -/
def stepOn (sect : Nat) (energising : Byte) (st : StepState) : Step :=
  { action := 1, device := 5, sect := sect, energising := energising, state := st }

/-- Permit 9 of Table 7-2, crewed by unit 7 here: n 4, h 2, section 17, worker 191; steps 3 and 4 not yet worked. -/
def permit9 (st : PermitState) : PermitCtx :=
  { PermitCtx.free with
    state := st, crew := 7, workers := [191], sections := [17], n := 4, h := 2, current := 2,
    steps := [stepOn 17 0 .done, stepOn 17 0 .done, stepOn 17 0 .pending, stepOn 17 1 .pending] }

/-- Permit 63 in a state, its one worker ON_DUTY and bound to it, and its hold counted when it has one. -/
def permitted (st : PermitState) : State :=
  let s := (linked.setWorker 191 { worker7 .onDuty with openPermit := some 63 }).setPermit 63 (permit9 st)
  if st.holds then s.setHold 17 1 else s

/-! ## Ill-formed commands -/

theorem test_ignored_write_of_start : Instr.wellFormed (.registerWriteIgnored .xctl 1 []) = false := by decide
theorem test_ignored_write_of_take : Instr.wellFormed (.registerWriteIgnored .note 1 []) = false := by decide
theorem test_store_beyond_32_bits : Instr.wellFormed (.start [(4294967296, 0)]) = false := by decide
theorem test_post_store_beyond_32_bits : Instr.wellFormed (.postHandover 1 [(4294967296, 0)]) = false := by decide
theorem test_ignored_store_beyond_32_bits :
    Instr.wellFormed (.registerWriteIgnored .xctl 0 [(4294967296, 0)]) = false := by decide
theorem test_well_formed : Instr.wellFormed (.registerWriteIgnored .xctl 4 [(4294967295, 1)]) = true := by decide
theorem test_no_word_spells_a_command : decodeTableWord 8 1 = none := by decide

/-! ## The check, airtime and codes -/

/-- R5: the register starts at FFFF, and 29B1 is the known check of "123456789" under this polynomial and start. -/
theorem test_check : check [] = 0xFFFF#16 ∧
    check [0x31, 0x32, 0x33, 0x34, 0x35, 0x36, 0x37, 0x38, 0x39] = 0x29B1#16 := by decide +kernel

/-- Section 2.2.1, case 1: rate 9600, preamble 60, payload 40. -/
theorem test_airtime_case1 :
    let c : ChannelSettings := { site1 with rate := 1, preamble := 60 }
    codedBits 40 = 864 ∧ c.airtime 40 = 150000 ∧ c.slots 40 = 30 := by decide +kernel

/-- R20: the least and the greatest S. -/
theorem test_slot_bounds :
    ({ site1 with rate := 2, preamble := 20 } : ChannelSettings).airtime 0 = 31667 ∧
    ({ site1 with rate := 2, preamble := 20 } : ChannelSettings).slots 0 = 7 ∧
    ({ site1 with preamble := 250 } : ChannelSettings).slots 64 = 102 := by decide +kernel

/-- Table 2-4 and Table 2-5: L_max of the four channels. -/
theorem test_lmax :
    site1.airtime 46 = 400000 ∧ site1.slots 46 = 80 ∧ site1.airtime 47 = 403334 ∧ site1.slots 47 = 81 ∧
    ({ site1 with rate := 1, preamble := 60, tot := 250 } : ChannelSettings).lmax = some 64 ∧
    site1.lmax = some 46 ∧
    ({ site1 with rate := 2, preamble := 250, tot := 300 } : ChannelSettings).lmax = some 46 ∧
    ({ site1 with preamble := 250 } : ChannelSettings).lmax = some 31 := by decide +kernel

/-- Section 2.3.1: the costs of a PERMIT_STEP and a PROMPT on channel 1. -/
theorem test_costs : site1.slots 9 = 56 ∧ site1.slots 2 = 51 := by decide +kernel

/-- The coded frame of Table 8-3 with a counter and its correct code. -/
def coded410 (counter : BitVec 32) : CodedFrame :=
  let f : CodedFrame :=
    { kind := .stepDone, permit := 9, step := 2, worker := 255, counter := counter, code := 0, ns := 0, live := true,
      stray := false }
  { f with code := check ([9, 9, 9, 9, 9, 9, 9, 9] ++ [21, 9, 2, 255] ++ beBytes 4 counter.toNat) }

/-- Unit 410 of Table 8-3. -/
def unit410 : UnitCtx :=
  { unit7 with address := 410, key := [9, 9, 9, 9, 9, 9, 9, 9], counter := 500 }

/-- Table 8-3: REPLAY, AHEAD and a pass, with the failure count and the expected counter after each. -/
theorem test_table_8_3 :
    let x1 := unit410.applyCode (coded410 499) (unit410.testCode 3 (coded410 499))
    let x2 := x1.applyCode (coded410 505) (x1.testCode 3 (coded410 505))
    let x3 := x2.applyCode (coded410 502) (x2.testCode 3 (coded410 502))
    unit410.testCode 3 (coded410 499) = .replay ∧ x1.failures = 1 ∧ x1.counter = 500 ∧
    x1.testCode 3 (coded410 505) = .ahead ∧ x2.failures = 2 ∧ x2.counter = 500 ∧
    x2.testCode 3 (coded410 502) = .passed ∧ x3.failures = 0 ∧ x3.counter = 503 := by decide +kernel

/-- A third refusal in a row sets code lock, and then a correct frame is refused CODE (section 8.3.1). -/
theorem test_code_lock :
    let x := { unit410 with failures := 2 }
    let wrong := { coded410 502 with code := (coded410 502).code + 1 }
    let y := x.applyCode wrong (x.testCode 3 wrong)
    x.testCode 3 wrong = .wrongCode ∧ y.codeLock = true ∧ y.testCode 3 (coded410 502) = .inLock ∧
    (y.applyCode (coded410 502) .inLock).counter = 500 := by decide +kernel

/-! ## Verbs -/

/-- R50: context 0 is registered with the record's address, and its record is written. -/
theorem test_unitRegister :
    let t := run .unitRegister (stored (asked up 1 0) .units 0 [0x03, 0xE8, 1, 2, 3, 4, 5, 6, 7, 8, 0, 0, 0, 9, 2])
    (t.unit 0).registered = true ∧ (t.unit 0).address = 1000 ∧ (t.unit 0).counter = 9 ∧ (t.unit 0).hint = some 2 ∧
    (t.unit 0).resync = .wanted ∧ outcome t = 1 ∧ t.mem.read (t.areaAddr .units 0x0F) = 0x82 := by decide +kernel

/-- R51: a unit with a live order stays; one without is gone. -/
theorem test_unitRelease :
    ((run .unitRelease (asked (ordered .queued) 2 95)).unit 95).registered = true ∧
    (run .unitRelease (asked linked 2 95)).unit 95 = .unregistered := by decide +kernel

/-- R52, R70: a resync starts, with RESYNC due. -/
theorem test_unitResync :
    let t := run .unitResync (asked linked 3 95)
    (t.unit 95).resync = .running ∧ (t.unit 95).due.resync = true := by decide +kernel

/-- R151: the larger counter is kept, the new key taken, the lock cleared. -/
theorem test_unitRekey :
    let s := linked.setUnit 95 { unit7 with counter := 600, failures := 3, codeLock := true }
    let t := run .unitRekey (stored (asked s 4 95) .units (64 * 95 + 2) [8, 7, 6, 5, 4, 3, 2, 1, 0, 0, 2, 0])
    (t.unit 95).counter = 600 ∧ (t.unit 95).key = [8, 7, 6, 5, 4, 3, 2, 1] ∧ (t.unit 95).codeLock = false := by
  decide +kernel

/-- R156, R157: interval 0 is raised to 1 and lead 30 lowered below it; two replacements are logged. -/
theorem test_workerOn :
    let t := run .workerOn (stored (asked linked 5 191) .workers (32 * 191) [0, 7, 0, 30, 60, 30])
    (t.worker 191).state = .onDuty ∧ (t.worker 191).interval = 1 ∧ (t.worker 191).lead = 0 ∧
    (t.worker 191).deadline = some 150 ∧ t.xif.clampLog.length = 2 := by decide +kernel

/-- R158. -/
theorem test_workerOff :
    let s := (watched .prompted).modDue 95 fun d => { d with prompt := [5, 191] }
    let t := run .workerOff (asked s 6 191)
    (t.worker 191).state = .off ∧ (t.worker 191).timer = none ∧ (t.unit 95).due.prompt = [5] ∧
    outcome (run .workerOff (asked (watched .silent) 6 191)) = VerbOutcome.alarmOpen.code := by decide +kernel

/-- R165: ACKNOWLEDGED, and an ALARM_NOTE frame stands in the queue of the unit's channel. -/
theorem test_alarmAck :
    let t := run .alarmAck (asked (watched .escalated) 7 191)
    (t.worker 191).state = .acknowledged ∧ (t.worker 191).timer = none ∧
    (t.unit 95).due.alarm = [(191, .acknowledged)] ∧ ((t.port 1).queue.map TxEntry.kind) = [.alarmNote] := by
  decide +kernel

/-- R167: back on duty with a new interval of 30 minutes from second 90. -/
theorem test_alarmClear :
    let t := run .alarmClear (asked (watched .acknowledged) 8 191)
    (t.worker 191).state = .onDuty ∧ (t.worker 191).deadline = some 1890 ∧ (t.worker 191).timer = some 1590 := by
  decide +kernel

/-- R94, R95: a posted order starts sending at once; a 300-byte order at a common segment limit of 31 has 11 segments
(Table 2-5). -/
theorem test_orderPost :
    let s := { linked with xif := { linked.xif with commonLimit := 31 }, ule := { linked.ule with window := 0 } }
    let t := run .orderPost (stored (asked s 9 255) .orders (512 * 255) [0, 7, 3, 0xFF, 1, 0, 0, 0, 0x01, 0x2C])
    (t.order 255).state = .sending ∧ (t.order 255).segSize = some 29 ∧ (t.order 255).segCount = some 11 := by
  decide +kernel

/-- R101. -/
theorem test_orderWithdraw :
    ((run .orderWithdraw (asked (ordered .held) 10 255)).order 255).state = .withdrawn ∧
    (((run .orderWithdraw (asked (ordered .sending) 10 255)).order 255).cancelling = some .withdrawn) ∧
    outcome (run .orderWithdraw (asked (ordered .accepted) 10 255)) = VerbOutcome.state.code := by decide +kernel

/-- R104: group 0 is every unit; the frame stands on channel 1, where unit 7 is. -/
theorem test_bulletin :
    let s := stored (asked linked 11 255) .orders (512 * 255 + 8) [0, 3]
    let t := run .bulletin (stored s .orders (512 * 255 + 0x20) [0x41, 0x42, 0x43])
    ((t.port 1).queue.map TxEntry.payload) = [[0, 0, 0x41, 0x42, 0x43]] ∧ (t.order 255).state = .withdrawn := by
  decide +kernel

/-- A permit record of one worker and section 17, with two steps of which the second is energising. -/
def permitRecord : List Byte :=
  [0, 7, 2, 1, 1, 1, 17, 0, 0, 0, 0, 0, 0, 0, 191, 0, 0, 0, 0, 0, 0, 0, 0, 0, 0, 0, 0, 0, 0, 0, 0, 0,
   1, 0, 0, 0, 5, 17, 0, 0, 2, 0, 0, 0, 5, 17, 1, 0]

/-- R113, R114: POSTED, its worker bound, and its header pulled for the crew unit. -/
theorem test_permitIssue :
    let t := run .permitIssue (stored (asked (watched .onDuty) 12 63) .permits (256 * 63) permitRecord)
    (t.permit 63).state = .posted ∧ (t.worker 191).openPermit = some 63 ∧ (t.permit 63).headerSent = true ∧
    ((t.unit 95).out.map OutEntry.payload) = [[63, 2, 1, 1, 17, 1, 191]] := by decide +kernel

/-- R127: the note CANCELLED is pulled, and the worker unbound. -/
theorem test_permitCancel :
    let t := run .permitCancel (asked (permitted .active) 13 63)
    (t.permit 63).state = .cancelled ∧ (t.worker 191).openPermit = none ∧
    ((t.unit 95).out.map OutEntry.payload) = [[63, 0, 0, 9]] := by decide +kernel

/-- R124: refused while a listed worker is unaccounted for. -/
theorem test_permitSurrenderLocal :
    ((run .permitSurrenderLocal (asked (permitted .holding) 14 63)).permit 63).source = .desk ∧
    outcome (run .permitSurrenderLocal
      (asked ((permitted .holding).setWorker 191 (worker7 .silent)) 14 63)) = VerbOutcome.alarmOpen.code := by
  decide +kernel

/-- Table 7-3: permit 9's surrender is accepted; step 3 is pulled, and with its hold gone section 17 counts 0. -/
theorem test_permitAcceptSurrender :
    let t := run .permitAcceptSurrender (asked (permitted .surrenderPending) 15 63)
    (t.permit 63).state = .restoring ∧ (t.permit 63).current = 3 ∧ t.hold 17 = 0 ∧
    (t.permit 63).stepState 3 = .sent := by decide +kernel

/-- R126: DONE in SURRENDER_PENDING and STATE in HOLDING. -/
theorem test_permitRefuseSurrender :
    ((permitted .surrenderPending).permitRefuseVerb 63).1 = .done ∧
    ((permitted .holding).permitRefuseVerb 63).1 = .state := by decide +kernel

/-- R37: the settings of channel 2 of Table 2-5; C_max 20 is raised to TOT / 5 = 60 (section 2.12). -/
theorem test_channelSet :
    let t := run .channelSet (stored (asked up 17 2) .config (0x010 + 32) [2, 0, 250, 1, 44, 25, 0, 20])
    (t.port 2).lmax = some 46 ∧ (t.port 2).credit = 60 ∧ t.xif.clampLog.length = 1 := by decide +kernel

/-- R38: into service with the carrier up: RECEIVING, the stuck timer at 10 s. -/
theorem test_channelEnable :
    let s := up.setPort 3 { Port.off true .unkey with settings := some site1, lmax := some 46 }
    let t := run .channelEnable (asked s 18 3)
    (t.port 3).state = .receiving ∧ (t.port 3).credit = 80 ∧ (t.port 3).stuckTimer = some 100000000 ∧
    t.xif.commonLimit = 46 := by decide +kernel

/-- R39, R83: OFF, and the unit on the channel is searched for; with no other channel it is UNREACHABLE. -/
theorem test_channelDisable :
    let t := run .channelDisable (asked linked 19 1)
    (t.port 1).state = .off ∧ (t.unit 95).reach = .unreachable ∧ t.xif.commonLimit = 64 := by decide +kernel

/-- Table 2-9: CHANNEL_RESET takes FAULT to OFF. -/
theorem test_channelReset :
    let s := up.setPort 2 { idlePort with state := .fault, credit := 33 }
    let t := run .channelReset (asked s 20 2)
    (t.port 2).state = .off ∧ (t.port 2).credit = 33 ∧ t.xif.pending = 0x20#8 := by decide +kernel

/-- R182: verb codes 0 and 21 are BAD_VERB; the next entry is then reached. -/
theorem test_badVerb :
    outcome (run .badVerb (asked up 21 0)) = VerbOutcome.badVerb.code ∧
    ((run .badVerb (asked up 0 0)).xif.consuming.map PageRun.next) = some 1 := by decide +kernel

/-! ## The part-wide commands -/

/-- R180: RESET keeps XBASE and the fault code; power-on does not, and takes the carrier levels. -/
theorem test_reset_and_powerOn :
    let s := { up with xif := { up.xif with fault := .noBase, pending := 3 } }
    (run .reset s).xif = { Xif.reset with xbase := 1, fault := .noBase } ∧
    (run (.powerOn false true false false) s).xif = Xif.reset ∧
    ((run (.powerOn false true false false) s).port 1).carrier = true := by decide +kernel

/-- R176: START with XBASE 0 is refused NO_BASE, and a START elsewhere than in HALTED is ignored. -/
theorem test_start :
    (run (.start []) State.reset).xctlRead = 0x10#32 ∧ (run (.start []) up).xif = up.xif := by decide +kernel

/-- R186, Table 11-11: START reads ten fields of a FREE order record, and seventeen of a live one. -/
theorem test_start_orderReads :
    let s := { linked with xif := { linked.xif with mode := .starting, busPlan := [(17, true)] } }
    (s.startOrder 255).xif.busPlan = [(7, true)] ∧
    (let t := (stored s .orders (512 * 255) [0, 7, 3, 0xFF, 1, 0, 0, 0, 0, 3, 4]).startOrder 255
     t.xif.busPlan = [(0, true)] ∧ (t.order 255).state = .delivered) := by decide +kernel

/-- R179: HALT returns the page that waits, with its notice. -/
theorem test_halt :
    let s := { up with xif := { up.xif with postB := .part, waiting := some (.b, 3) } }
    let t := run .halt s
    t.xif.mode = .halting ∧ t.xif.postB = .host ∧ t.xif.waiting = none ∧ lastNotice t = [0x82, 1, 0] := by
  decide +kernel

/-- R179: HALT does not complete while a page is in progress. -/
theorem test_haltComplete :
    let s := { up with xif := { up.xif with mode := .halting } }
    (run .haltComplete s).xif.mode = .halting := by decide +kernel

/-- R174, R176: XBASE is writable in HALTED only, and its low 12 bits read as zero. -/
theorem test_xbaseWrite :
    (run (.xbaseWrite 0x12345678) State.reset).xbaseRead = 0x12345000#32 ∧
    (run (.xbaseWrite 0x12345678) up).xbaseRead = 0x00001000#32 := by decide +kernel

/-- Table 11-12: a value that is no command leaves the part as it was; the server's store is made. -/
theorem test_registerWriteIgnored :
    let t := run (.registerWriteIgnored .xctl 4 [(4096, 7)]) up
    t.xif = up.xif ∧ t.mem = [(4096, 7)] := by decide +kernel

/-- R181: page B with 64 entries waits behind page A; 65 entries, or a page that is PART, are rejected. -/
theorem test_postHandover :
    (run (.postHandover 0x140 []) up).xif.waiting = some (.b, 64) ∧
    (run (.postHandover 0x141 []) up).postRead = 5#32 ∧ (run (.postHandover 0x001 []) up).postRead = 5#32 := by
  decide +kernel

/-- R183: the header of page A gets the count and the time; page B is FILLING. -/
theorem test_take :
    let t := run .take { up with xif := { up.xif with notices := 5 } }
    t.xif.filling = .b ∧ t.xif.notices = 0 ∧ t.mem.read (t.areaAddr .noticeA 0) = 5 ∧
    t.mem.read (t.areaAddr .noticeA 12) = 90 := by decide +kernel

/-- R185: pending classes 2 and 8 are read in that order, then 0. -/
theorem test_noteRead :
    let s := { up with xif := { up.xif with pending := 0x82 } }
    let t := run .noteRead s
    s.interruptLine = true ∧ t.xif.noteData = 2#32 ∧ t.xif.pending = 0x80#8 ∧
    (run .noteRead t).xif.noteData = 8#32 ∧ (run .noteRead (run .noteRead t)).xif.noteData = 0#32 := by decide +kernel

/-- R175: the record of a registered unit is written; the next status falls due at second 180. -/
theorem test_periodicStatusWrite :
    let t := run .periodicStatusWrite { linked with xif := { linked.xif with busRetries := 3 } }
    t.xif.nextPeriodic = 180 ∧ t.second = 120 ∧ t.mem.read (t.areaAddr .units (64 * 95 + 0x0F)) = 0x80 ∧
    t.mem.read (t.areaAddr .config 0x0D1) = 3 := by decide +kernel

/-- R186, R176: a write of the orders region (code 8) that times out twice is a fault; one made again is counted. -/
theorem test_busAccessTimeout :
    let t := run (.busAccessTimeout (.now .orders true) true) up
    t.xif.mode = .faulted ∧ t.xctlRead = 0x1824#32 ∧ t.xif.pending = 2#8 ∧
    (run (.busAccessTimeout (.now .orders true) false) up).xif.busRetries = 1 := by decide +kernel

/-! ## Modems, ports and timers -/

/-- Table 2-3: IDLE to RECEIVING and back. -/
theorem test_carrier :
    let t := run (.carrierUp 1) linked
    (t.port 1).state = .receiving ∧ (t.port 1).stuckTimer = some 100000000 ∧
    ((run (.carrierDown 1) t).port 1).state = .idle := by decide +kernel

/-- Table 2-9: carrier-down after a stuck carrier raises RESTORED. -/
theorem test_carrierDown_restored :
    let s := linked.setPort 1 { idlePort with
      state := .receiving, carrier := true, carrierPin := true, carrierUpAt := 79000000, stuck := true }
    let t := run (.carrierDown 1) s
    (t.port 1).stuck = false ∧ lastNotice t = [0x67, 1, 0] ∧
    t.mem.read (t.areaAddr .noticeA (16 + 8)) = 11 := by decide +kernel

/-- A CHECKIN of unit 7 for worker 191, as it comes up: system code 0, N(S) 0. -/
def checkin : List Byte :=
  frameBytes
    { kindCode := 16, up := true, expedited := false, sequenced := true, address := 7, site := 0,
      lockout := false, resend := false, busy := false, reportValid := false, systemCode := 0, ns := 0,
      nextExpected := 0, length := 1, timeMark := 0, cls := 0, attempt := 0 }
    [191]

/-- A frame of unit 7 with a kind, N(S), the report it carries, and a payload. -/
def sentUp (kind ns : Nat) (valid busy resend lockout : Bool) (next : BitVec 8) (payload : List Byte) : List Byte :=
  frameBytes
    { kindCode := kind, up := true, expedited := false, sequenced := decide (kind < 23), address := 7, site := 0,
      lockout := lockout, resend := resend, busy := busy, reportValid := valid, systemCode := 0,
      ns := BitVec.ofNat 8 ns, nextExpected := next, length := payload.length, timeMark := 0, cls := 0, attempt := 0 }
    payload

/-- An EMERGENCY of unit 7 for worker 191, cause BUTTON, no position. -/
def emergency : List Byte :=
  frameBytes
    { kindCode := 17, up := true, expedited := true, sequenced := false, address := 7, site := 0,
      lockout := false, resend := false, busy := false, reportValid := false, systemCode := 0, ns := 0,
      nextExpected := 0, length := 3, timeMark := 0, cls := 0, attempt := 0 }
    [191, 1, 0]

/-- Channel 1 with a passed frame at the front of its buffer. -/
def heard (s : State) (bs : List Byte) : State :=
  s.setPort 1 { s.port 1 with rx := [{ bytes := bs, passed := true }] }

/-- R2, Table 11-1: the header byte of a CHECKIN is kind 16, up, not expedited, sequenced. -/
theorem test_header_byte : byteAt checkin 0 = 0x85#8 ∧ byteAt emergency 0 = 0x8E#8 ∧ checkin.length = 13 := by
  decide +kernel

/-- R34: the fifth frame is an overrun. -/
theorem test_frameReceived :
    let f : RxFrame := { bytes := [], passed := false }
    let full := linked.setPort 1 { idlePort with rx := [f, f, f, f] }
    ((run (.frameReceived 1 checkin) linked).port 1).rx = [{ bytes := checkin, passed := false }] ∧
    ((run (.frameReceived 1 checkin) full).port 1).stats[PortCounter.overruns.ix.val] = 1 := by decide +kernel

/-- R6 to R9: a good frame passes; one with a byte changed fails its check; a short one is malformed. -/
theorem test_receiveChecks :
    receiveCheck 0 checkin = .passed ∧ receiveCheck 0 emergency = .passed ∧
    receiveCheck 0 (checkin.set 3 1) = .checkFailure ∧ receiveCheck 0 [1, 2, 3] = .malformed ∧
    receiveCheck 1 checkin = .malformed := by decide +kernel

/-- R29, Table 2-6: a PROMPT of one worker costs 51 slots on channel 1, and the watchdog runs for A plus 100 ms. -/
theorem test_frameStart :
    let e : TxEntry := { kind := .prompt, unit := some 95, ref := 4, attempt := 0, payload := [], started := false }
    let s := (linked.setPort 1 { idlePort with queue := [e], credit := 25 }).modDue 95 fun d =>
      { d with prompt := [191], placedPrompt := some { chan := 1, ref := 4 } }
    let t := run (.frameStart 1) s
    (t.port 1).credit = -26 ∧ (t.port 1).state = .transmitting ∧ (t.port 1).watchdog = some 90353334 ∧
    (t.unit 95).due = .empty := by decide +kernel

/-- Table 2-6: a PERMIT frame does not start on borrowed credit. -/
theorem test_frameStart_waits :
    let e : TxEntry :=
      { kind := .permitNote, unit := some 95, ref := 4, attempt := 0, payload := [63, 0, 0, 9], started := false }
    ((run (.frameStart 1) (linked.setPort 1 { idlePort with queue := [e], credit := 20 })).port 1).state = .idle := by
  decide +kernel

/-- R137: the frame of an energising step starts while its section has no hold, and leaves the queue unsent while it has. -/
theorem test_frameStart_held :
    let e : TxEntry :=
      { kind := .permitStep, unit := some 95, ref := 4, attempt := 0, payload := [63, 4, 2, 0, 0, 0, 9, 17, 1],
        started := false }
    let s := linked.setPort 1 { idlePort with queue := [e], credit := 80 }
    let p := fun n => (run (.frameStart 1) (s.setHold 17 n)).port 1
    (p 0).state = .transmitting ∧ (p 1).state = .idle ∧ (p 1).queue = [] ∧ (p 1).credit = 80 := by decide +kernel

/-- A port with the frame of outstanding entry 4 of unit 7 on air. -/
def sending : State :=
  let e : TxEntry :=
    { kind := .permitNote, unit := some 95, ref := 4, attempt := 0, payload := [63, 0, 0, 9], started := true }
  let out : OutEntry :=
    { seq := 0, ref := 4, kind := .permitNote, producer := .permitNote 63 1, payload := [63, 0, 0, 9], retries := 0,
      attempt := 0, placement := .onAir, repeatMark := false, everOnAir := true }
  (linked.setPort 1 { idlePort with state := .transmitting, queue := [e], watchdog := some 90300000 }).setUnit 95
    { unit7 with out := [out], vs := 1 }

/-- R30, R66: the frame is gone, the entry SENT, the reply wait of 1500 ms timed. -/
theorem test_txDone :
    let t := run (.txDone 1) sending
    (t.port 1).state = .idle ∧ (t.port 1).queue = [] ∧ ((t.unit 95).out.map OutEntry.placement) = [.sent] ∧
    (t.unit 95).timer = .running 91500000 := by decide +kernel

/-- R80: a timer that a roam stopped starts at a tx-done on the new channel, and not on the one the unit left. -/
theorem test_txDone_roamed :
    let timer := fun c =>
      ((run (.txDone 1) (sending.modUnit 95 fun x => { x with timer := .roamed, current := some c })).unit 95).timer
    timer 1 = .running 91500000 ∧ timer 2 = .roamed := by decide +kernel

/-- R137: the frame kept from starting on section 17 waits on the link again when that section is released. -/
theorem test_heldFrame_resumes :
    let out : OutEntry :=
      { seq := 0, ref := 4, kind := .permitStep, producer := .permitStep 63 4, payload := [63, 4, 2, 0, 0, 0, 9, 17, 1],
        retries := 0, attempt := 0, placement := .unplaced, repeatMark := false, everOnAir := true }
    let after := fun sect =>
      ((linked.setUnit 95 { unit7 with out := [out], vs := 1 }).releaseFall 63 sect).unit 95
    (after 17).out.map OutEntry.placement = [.waiting] ∧ (after 18).out.map OutEntry.placement = [.unplaced] := by
  decide +kernel

/-- R35: FAULT, the queue handed back and the frame's entry taken off the channel. -/
theorem test_modemAlert :
    let t := run (.modemAlert 1) sending
    (t.port 1).state = .fault ∧ (t.port 1).queue = [] ∧ (t.unit 95).reach = .unreachable := by decide +kernel

/-- R31: the watchdog's expiry unkeys the modem and takes the port to FAULT. -/
theorem test_txDoneWatchdogExpiry :
    let t := run (.txDoneWatchdogExpiry 1) sending
    (t.port 1).state = .fault ∧ (t.port 1).modemCmd = .unkey := by decide +kernel

/-- R23: with D at 25 the credit rises by 1 on the fourth expiry, and a full credit empties the accumulator. -/
theorem test_creditSlotExpiry :
    let t := run (.creditSlotExpiry 1) (linked.setPort 1 { idlePort with credit := 7, acc := 75 })
    (t.port 1).credit = 8 ∧ (t.port 1).acc = 0 ∧ (t.port 1).slotTimer = some 90010000 ∧
    ((run (.creditSlotExpiry 1) (linked.setPort 1 { idlePort with acc := 75 })).port 1).acc = 0 := by decide +kernel

/-- R33. -/
theorem test_carrierStuckExpiry :
    let s := linked.setPort 1 { idlePort with state := .receiving, carrier := true, stuckTimer := some 95000000 }
    let t := run (.carrierStuckExpiry 1) s
    (t.port 1).stuck = true ∧ (t.port 1).stats[PortCounter.stuckEvents.ix.val] = 1 ∧
    lastNotice t = [0x66, 1, 10] := by decide +kernel

/-- R54, R59, R163: the check-in begins a new interval, and V(R) advances. -/
theorem test_uplinkFrame :
    let t := run (.uplinkFrame 1) (heard (watched .onDuty) checkin)
    (t.worker 191).lastCheckin = some 90 ∧ (t.worker 191).deadline = some 1890 ∧ (t.unit 95).vr = 1 ∧
    (t.unit 95).due.report = true := by decide +kernel

/-- R164: an EMERGENCY is taken in lockout. R72: a RESYNC_ACK met with resync pending NO is counted (its counter is the
thirteenth of R74) and starts no resync by its report, be that invalid or with the lockout flag set. -/
theorem test_uplinkFrame_expedited :
    let s := heard ((watched .onDuty).setUnit 95 { unit7 with lockout := true }) emergency
    let t := run (.uplinkFrame 1) s
    let ack := fun lockout next => (run (.uplinkFrame 1) (heard linked (sentUp 24 0 true false false lockout next []))).unit 95
    ((t.worker 191).state = .emergency ∧ (t.unit 95).due.alarm = [(191, .received)] ∧ t.xif.pending = 1#8) ∧
    ∀ a ∈ [ack false 9, ack true 0],
      a.resync = .no ∧ a.due = unit7.due ∧ a.stats[12] = 1#16 ∧ a.lastHeard = some 90 := by
  decide +kernel

/-- A READBACK of permit 63 whose counter write of 501 is in flight. -/
def readback : State :=
  (permitted .issued).setUnit 95 { unit7 with
    counter := 501, awaiting := some 0,
    inFlight := some { kind := .readback, permit := 63, step := 0, worker := 0, counter := 500, code := 0, ns := 0,
                       live := true, stray := false } }

/-- R150, R119: the counter field holds 501, and the permit is ACTIVE with step 1 pulled. -/
theorem test_counterWriteBackComplete :
    let t := run (.counterWriteBackComplete 95) readback
    t.field .units (64 * 95 + 0x0A) 4 = 501 ∧ (t.permit 63).state = .active ∧ (t.permit 63).current = 1 ∧
    (t.unit 95).vr = 1 ∧ (t.unit 95).inFlight = none := by decide +kernel

/-- R142, R186: a bus fault ends HALT. A READBACK whose counter write it cuts is not taken; one whose counter write came
before it is taken in HALTING. -/
theorem test_haltComplete_busFault :
    let s (n : Nat) : State := { readback with xif := { readback.xif with
      mode := .halting, consuming := none, busPlan := [(n, true)] } }
    (run .haltComplete (s 0)).xif.mode = .faulted ∧ ((run .haltComplete (s 0)).permit 63).state = .issued ∧
    (((s 1).completeWrites State.handBack).permit 63).state = .active := by decide +kernel

/-- A confirmation of permit 63, as a context, whose counter write is in flight, its worker ON_DUTY. -/
def confirmed (kind : FrameKind) (step worker : Nat) (x : PermitCtx) : State :=
  ((watched .onDuty).setPermit 63 x).setUnit 95 { unit7 with
    counter := 501, awaiting := some 0,
    inFlight := some { kind := kind, permit := 63, step := step, worker := worker, counter := 500, code := 0, ns := 0,
                       live := true, stray := false } }

/-- A STANDDOWN of worker 191 whose counter write is in flight. -/
def stoodDown (st : WorkerState) : State :=
  (confirmed .standdown 0 191 (permit9 .active)).setWorker 191 (worker7 st)

/-- R120: a step that is not the current one is refused OUT_OF_ORDER. -/
theorem test_counterWriteBackComplete_refused :
    let t := run (.counterWriteBackComplete 95) (confirmed .stepDone 3 255 (permit9 .active))
    (t.permit 63).lastRefusal = some (.outOfOrder, 3) ∧ (t.permit 63).current = 2 ∧ (t.unit 95).vr = 1 := by
  decide +kernel

/-- An entry of unit 7 whose frame has been sent a number of times. -/
def awaitingReply (retries : Nat) : State :=
  let out : OutEntry :=
    { seq := 0, ref := 4, kind := .permitNote, producer := .permitNote 63 1, payload := [63, 0, 0, 9],
      retries := retries, attempt := 0, placement := .sent, repeatMark := false, everOnAir := true }
  linked.setUnit 95 { unit7 with out := [out], vs := 1, timer := .running 91500000 }

/-- R67: the frame is queued again with a higher attempt number; past the retry limit of 4 the unit is searched for. -/
theorem test_retransmissionTimerExpiry :
    let t := run (.retransmissionTimerExpiry 95) (awaitingReply 3)
    ((t.port 1).queue.map TxEntry.attempt) = [1] ∧ ((t.unit 95).out.map OutEntry.retries) = [4] ∧
    t.xif.clock = 91500000 ∧
    ((run (.retransmissionTimerExpiry 95) (awaitingReply 4)).unit 95).reach = .searching := by decide +kernel

/-- Unit 7 with a resync running, after a number of attempts. -/
def resyncing (attempts : Nat) : State :=
  linked.setUnit 95 { unit7 with
    resync := .running, resyncAttempts := attempts, resyncFrom := .reachable, timer := .running 91500000 }

/-- R71: five RESYNC frames are sent before the unit is given up. -/
theorem test_resyncReplyWaitExpiry :
    ((run (.resyncReplyWaitExpiry 95) (resyncing 3)).unit 95).due.resync = true ∧
    ((run (.resyncReplyWaitExpiry 95) (resyncing 4)).unit 95).reach = .unreachable := by decide +kernel

/-- Unit 7 searched for on channel 1, after a number of probes. -/
def probed (n : Nat) : State :=
  linked.setUnit 95 { unit7 with
    reach := .searching, origin := .lost, probe := some 1, probesSent := n, searchTimer := some 91500000 }

/-- R85: a second probe; after two, with no other channel, the unit is UNREACHABLE. -/
theorem test_searchTimerProbeExpiry :
    let t := run (.searchTimerProbeExpiry 95) (probed 1)
    (t.unit 95).probe = some 1 ∧ (t.unit 95).due.poll = true ∧
    ((run (.searchTimerProbeExpiry 95) (probed 2)).unit 95).reach = .unreachable := by decide +kernel

/-- Unit 7 UNREACHABLE, its search interval over. -/
def lost : State := linked.setUnit 95 { unit7 with reach := .unreachable, searchTimer := some 91500000 }

/-- R87. -/
theorem test_searchIntervalExpiry :
    let t := run (.searchIntervalExpiry 95) lost
    (t.unit 95).reach = .searching ∧ (t.unit 95).origin = .again ∧ (t.unit 95).probe = some 1 := by decide +kernel

/-- R159. -/
theorem test_promptTime :
    let s := linked.setWorker 191 { worker7 .onDuty with timer := some 95, deadline := some 395 }
    let t := run (.promptTime 191) s
    (t.worker 191).state = .prompted ∧ (t.worker 191).timer = some 395 ∧ (t.unit 95).due.prompt = [191] := by
  decide +kernel

/-- R160: in coverage OVERDUE, out of it SILENT for the grace of 10 minutes. -/
theorem test_deadline :
    let s := (watched .onDuty).setUnit 95 { unit7 with lastHeard := some 80 }
    ((run (.deadline 191) s).worker 191).state = .overdue ∧
    ((run (.deadline 191) (watched .onDuty)).worker 191).state = .silent ∧
    ((run (.deadline 191) (watched .onDuty)).worker 191).timer = some 690 := by decide +kernel

/-- R161. -/
theorem test_graceExpiry :
    let t := run (.graceExpiry 191) (watched .silent)
    (t.worker 191).state = .overdue ∧ (t.worker 191).timer = some 210 := by decide +kernel

/-- R162: the EMERGENCY-class notice ESCALATED, and POLL due. -/
theorem test_escalationExpiry :
    let t := run (.escalationExpiry 191) (watched .overdue)
    (t.worker 191).state = .escalated ∧ (t.worker 191).escCount = 1 ∧ (t.unit 95).due.poll = true ∧
    t.xif.pending = 1#8 := by decide +kernel

/-- R100. -/
theorem test_orderExpiry :
    ((run (.orderExpiry 255) (ordered .held)).order 255).state = .expired ∧
    ((run (.orderExpiry 255) (ordered .sending)).order 255).state = .sending := by decide +kernel

/-! ## States that meet the hypotheses of the statements

One theorem for each statement with hypotheses, with one case for each of its clauses. `reached` is `Posted`
(reached_posted); indices and counts stand at the end of their ranges. -/

/-- `up` with the command at the front of the queue. -/
def queued (s : State) (c : Instr) : State := { s with pending := [c] }

theorem witness_StepTakesFrontCommand : (queued up .halt).pending = .halt :: [] ∧ up.pending = [] := by decide +kernel

/-- The state a step leaves is a next state: no command stops the part. -/
theorem step_answers (s : State) (c : Instr) : ∃ t, step (queued s c) = .next t := by
  cases c <;> exact ⟨_, rfl⟩

theorem witness_StepKeepsMemoryCanonical :
    ∃ s t : State, s.mem ≠ [] ∧ MemoryCanonical s ∧ step s = .next t :=
  let ⟨t, h⟩ := step_answers (asked up 6 5) .workerOff
  ⟨queued (asked up 6 5) .workerOff, t, by decide +kernel, by unfold MemoryCanonical; decide +kernel, h⟩

theorem linked_credit : CreditBounded linked := by
  intro c cfg h
  have hc : ∀ c, (match (linked.port c).settings with
      | none => true
      | some cfg => decide (-(cfg.cmax : Int) ≤ (linked.port c).credit ∧ (linked.port c).credit ≤ cfg.cmax
          ∧ (linked.port c).acc < 100 ∧ cfg.duty ≤ 100)) = true := by decide +kernel
  have := hc c
  rw [h] at this
  exact of_decide_eq_true this

theorem witness_StepKeepsCreditBounded :
    ∃ s t : State, (s.port 1).settings = some site1 ∧ CreditBounded s ∧ step s = .next t :=
  let ⟨t, h⟩ := step_answers linked (.creditSlotExpiry 1)
  ⟨queued linked (.creditSlotExpiry 1), t, by decide +kernel, linked_credit, h⟩

/-- Both posting pages handed over, the first at its last entry, and the notice page full. -/
def busy : State :=
  { up with xif := { up.xif with
      consuming := some { page := .a, count := 64, next := 63, notDone := 64 }, postB := .part,
      waiting := some (.b, 64), notices := 127 } }

theorem witness_StepKeepsInterfaceSound :
    ∃ s t : State, s.xif = busy.xif ∧ PostingSound s.xif ∧ NoticesFit s ∧ step s = .next t := by
  obtain ⟨t, h⟩ := step_answers busy .badVerb
  refine ⟨queued busy .badVerb, t, rfl, ⟨fun r hr => ?_, fun w hw => ?_⟩, by unfold NoticesFit; decide, h⟩
  · cases hr
    exact ⟨rfl, by show 63 < 64; decide, by show 64 ≤ 64; decide⟩
  · cases hw
    exact ⟨rfl, by show 1 ≤ 64; decide, by show 64 ≤ 64; decide, _, rfl, by show Page.a ≠ Page.b; decide⟩

theorem held_exact : HoldsExact (permitted .holding) := by unfold HoldsExact; decide +kernel

theorem witness_StepKeepsHoldsExact :
    ∃ s t : State, s.hold 17 = 1 ∧ HoldsExact s ∧ step s = .next t :=
  let ⟨t, h⟩ := step_answers (permitted .holding) .permitSurrenderLocal
  ⟨queued (permitted .holding) .permitSurrenderLocal, t, by decide +kernel, held_exact, h⟩

/-- Permit 63 RESTORING with its energising step 4 with the crew. -/
def energised : State :=
  linked.setPermit 63 { permit9 .restoring with
    current := 4, steps := [stepOn 17 0 .done, stepOn 17 0 .done, stepOn 17 0 .done, stepOn 17 1 .sent] }

theorem energised_kept : InterlockKept energised := by
  intro p st _ h _ _
  have hp : (match (energised.permit p).step (energised.permit p).current with
      | none => true
      | some st => decide (energised.hold st.sect = 0)) = true := by
    clear h; revert p; decide +kernel
  rw [h] at hp
  exact of_decide_eq_true hp

theorem witness_StepKeepsInterlock :
    ∃ s t : State, (s.permit 63).stepState 4 = .sent ∧ InterlockKept s ∧ step s = .next t :=
  let ⟨t, h⟩ := step_answers energised (.txDone 1)
  ⟨queued energised (.txDone 1), t, by decide +kernel, energised_kept, h⟩

/-- Permit 63 RESTORING at its energising step 4, whose frame waits in the queue of channel 1 and is outstanding at
unit 7. -/
def stepOut : OutEntry :=
  { seq := 0, ref := 4, kind := .permitStep, producer := .permitStep 63 4, payload := (stepOn 17 1 .sent).payload 63 4,
    retries := 0, attempt := 0, placement := .queued, repeatMark := false, everOnAir := false }

/-- The frame of that entry. -/
def stepFrame : TxEntry :=
  { kind := .permitStep, unit := some 95, ref := 4, attempt := 0, payload := stepOut.payload, started := false }

/-- The part with that step on the link. -/
def given : State :=
  ((energised.setPermit 63 { energised.permit 63 with inFlight := 1 }).setUnit 95
    { unit7 with out := [stepOut], vs := 1 }).setPort 1 { idlePort with queue := [stepFrame] }

theorem given_out (u : UnitIx) : (given.unit u).out = if u = 95 then [stepOut] else [] := by
  revert u; decide +kernel

theorem given_waits {c : Chan} {e : TxEntry} (h : Waits given c e) : e = stepFrame := by
  have ho : ∀ c, given.offer c = [] := by decide +kernel
  have hq : ∀ c, ∀ e ∈ (given.port c).queue, e = stepFrame := by decide +kernel
  rcases h with ⟨it, hi, -⟩ | ⟨hi, -⟩
  · simp [ho] at hi
  · exact hq c e hi

theorem given_addresses : AddressesDistinct given := by
  have h : ∀ u, (given.unit u).registered = true → u = 95 := by decide +kernel
  intro u v hu hv _
  rw [h u hu, h v hv]

theorem given_outstanding : OutstandingSound given where
  window := by decide +kernel
  numbered := by decide +kernel
  empty := by decide +kernel
  refs := by decide +kernel

theorem given_kept : InterlockKept given := by
  intro p st _ h _ _
  have hp : (match (given.permit p).step (given.permit p).current with
      | none => true
      | some st => decide (given.hold st.sect = 0)) = true := by
    clear h; revert p; decide +kernel
  rw [h] at hp
  exact of_decide_eq_true hp

/-- What holds of the one outstanding entry holds of all. -/
theorem given_entries {P : UnitIx → OutEntry → Prop} (h : P 95 stepOut) : ∀ u, ∀ e ∈ (given.unit u).out, P u e := by
  intro u e he
  rw [given_out] at he
  split at he
  · next hu => cases List.mem_singleton.1 he; exact hu ▸ h
  · simp at he

theorem given_count (u : UnitIx) (f : OutEntry → Bool) : (given.unit u).out.countP f ≤ if f stepOut then 1 else 0 := by
  rw [given_out]
  split <;> cases hf : f stepOut <;> simp [hf]

theorem given_messages : PermitMessagesSound given where
  crewed := given_entries (by decide +kernel)
  counted := fun u p => Nat.le_trans (given_count u _) (by revert p; decide +kernel)
  steps := given_entries ⟨fun _ => ⟨63, 4, rfl⟩, fun p k h => by
    cases h
    refine ⟨rfl, by decide, by decide +kernel, ⟨stepOn 17 1 .sent, by decide +kernel, rfl⟩, fun _ => .inl (by decide +kernel)⟩⟩
  once := fun u p k => Nat.le_trans (given_count u _) (by split <;> decide)
  carried := fun c e h _ => by
    rw [given_waits h]
    exact ⟨95, rfl, stepOut, by rw [given_out]; simp, rfl, rfl, rfl⟩
  early := by decide +kernel
  held := by decide +kernel
  working := by decide +kernel
  idle := by decide +kernel
  flight := fun u f h => by
    have : ∀ u, (given.unit u).inFlight = none := by decide +kernel
    simp [this] at h

theorem witness_StepKeepsInterlockOnFrames :
    ∃ s t : State, Waits s 1 stepFrame ∧ AddressesDistinct s ∧ OutstandingSound s ∧ InterlockKept s ∧
      PermitMessagesSound s ∧ step s = .next t :=
  let ⟨t, h⟩ := step_answers given (.frameStart 1)
  ⟨queued given (.frameStart 1), t, .inr ⟨List.mem_singleton.2 rfl, rfl⟩, given_addresses,
    ⟨given_outstanding.1, given_outstanding.2, given_outstanding.3, given_outstanding.4⟩, given_kept,
    ⟨given_messages.1, given_messages.2, given_messages.3, given_messages.4, given_messages.5, given_messages.6,
      given_messages.7, given_messages.8, given_messages.9, given_messages.10⟩, h⟩

/-- That frame of an energising step starts, its section being free. -/
theorem witness_StepKeepsInterlockOnFrames_start :
    ∃ s t : State, step s = .next t ∧ (s.port 1).state ≠ .transmitting ∧ (t.port 1).state = .transmitting :=
  ⟨queued given (.frameStart 1), run (.frameStart 1) given, rfl, by decide, by decide +kernel⟩

theorem witness_AccountabilityBeforeRelease :
    let s := asked (permitted .surrenderPending) 15 63
    s.xif.mode ≠ .halted ∧ (s.permit 63).state.holds = true ∧
    (∃ t, exec .permitAcceptSurrender s = .next t ∧ (t.permit 63).state = .restoring) :=
  ⟨by decide, by decide +kernel, _, rfl, by
    show ((run .permitAcceptSurrender (asked (permitted .surrenderPending) 15 63)).permit 63).state = .restoring
    decide +kernel⟩

theorem witness_HostFieldsNeverWritten :
    (∀ r, (asked up 6 5).xif.consuming = some r → r.next < 64) ∧
    (∃ t, exec .workerOff (asked up 6 5) = .next t) ∧ ¬ PartByte allRegions 1 0 := by
  refine ⟨?_, ⟨_, rfl⟩, ?_⟩
  · rintro r hr
    obtain rfl : _ = r := Option.some.inj hr
    decide
  · rintro ⟨r, _, o, _, h⟩
    omega

theorem witness_CheckIsZeroWhenItPasses :
    2 ≤ checkin.length ∧ checkPasses checkin = true ∧ check checkin = 0 ∧
    checkPasses (checkin.set 3 1) = false ∧ check (checkin.set 3 1) ≠ 0 := by decide +kernel

theorem witness_HeaderReadsBack :
    let h : Header :=
      { kindCode := 31, up := true, expedited := true, sequenced := true, address := 1023, site := 3, lockout := true,
        resend := true, busy := true, reportValid := true, systemCode := 255, ns := 255, nextExpected := 255,
        length := 255, timeMark := 65535, cls := 3, attempt := 7 }
    h.kindCode < 32 ∧ h.address < 1024 ∧ h.site < 4 ∧ h.length < 256 ∧ h.timeMark < 65536 ∧ h.cls < 4 ∧
      h.attempt < 8 ∧ Header.parse (frameBytes h [1]) = h := by decide +kernel

theorem witness_AirtimeAndLongestPayload :
    ({ site1 with rate := 2, preamble := 20 } : ChannelSettings).rate ≤ 2 ∧ 20 ≤ 20 ∧ site1.lmax = some 46 ∧
    ({ site1 with tot := 20 } : ChannelSettings).lmax = none := by decide +kernel

theorem witness_SequencedFrameClasses :
    1 ≤ 127 ∧ 127 + 127 ≤ 254 ∧ seqClass 127 127 127 false = .gap ∧ seqClass 127 127 128 false = .lockout ∧
    seqClass 127 127 129 false = .duplicate ∧ seqClass 127 127 255 true = .duplicate := by decide

/-- Each result of Table 8-2 arises; the bound is met exactly and passed by one. -/
theorem witness_CodeCheckerTests :
    ({ unit410 with codeLock := true } : UnitCtx).testCode 3 (coded410 500) = .inLock ∧
    unit410.testCode 3 { coded410 500 with step := 3 } = .wrongCode ∧
    unit410.testCode 3 (coded410 499) = .replay ∧ unit410.testCode 3 (coded410 504) = .ahead ∧
    unit410.testCode 3 (coded410 503) = .passed ∧ unit410.testCode 3 (coded410 500) = .passed ∧
    ({ unit410 with counter := 4294967294 } : UnitCtx).testCode 3 (coded410 4294967295) = .ahead := by decide +kernel

/-- A coded frame of unit 7, with its code right or off by a number. -/
def codedUp (kind permit step worker counter off : Nat) : List Byte :=
  let subject := [kind, permit, step, worker].map byteOf
  sentUp kind 0 false false false false 0 (subject.drop 1 ++ beBytes 4 counter ++
    beBytes 2 (check (unit7.key ++ subject ++ beBytes 4 counter) + BitVec.ofNat 16 off).toNat)

/-- The coded frame as the checker reads it. -/
def codedRead (kind : FrameKind) (bs : List Byte) : CodedFrame := codedOf kind 0 (payloadOf bs)

/-- Coded frames accepted: one behind a write in flight, and one of each result; for the crew's own permit and another; and
a STANDDOWN for a worker in an emergency and out of one. -/
theorem witness_CodeCheckerTests_accepted :
    (∀ kind ∈ [18, 20, 21, 22],
      let bs := codedUp kind 63 0 191 0 0
      let s := heard (permitted .issued) bs
      let h := Header.parse bs
      (s.port 1).rx = { bytes := bs, passed := true } :: [] ∧ s.xif.mode.active = true ∧ s.unitOf h.address = some 95 ∧
      h.reportValid = false ∧ h.kindCode = kind ∧ (s.port 1).enabled = true ∧ (s.unit 95).reach = .reachable ∧
      (s.unit 95).current = some 1 ∧ (s.unit 95).lockout = false ∧ (s.unit 95).resync = .no ∧
      (s.unit 95).awaiting = none ∧ (s.unit 95).inFlight = none ∧ h.ns = (s.unit 95).vr) ∧
    (∀ v, ((permitted .issued).worker v).state ≠ .silent) ∧
    ((readback.setUnit 95 { readback.unit 95 with awaiting := none }).unit 95).inFlight ≠ none ∧
    (let f := fun counter off => codedRead .readback (codedUp 20 63 0 191 counter off)
     unit7.testCode 3 (f 3 0) = .passed ∧ unit7.testCode 3 (f 3 1) = .wrongCode ∧ unit7.testCode 3 (f 4 0) = .ahead ∧
     ({ unit7 with counter := 1 } : UnitCtx).testCode 3 (f 0 0) = .replay ∧
     ({ unit7 with codeLock := true } : UnitCtx).testCode 3 (f 0 0) = .inLock) ∧
    (∀ n ∈ [1, 2, 3], let x : UnitCtx := { unit7 with failures := n }; x.codeLock = false ∧ x.failures = n) ∧
    (((permitted .issued).permit 63).state ≠ .free ∧ ((permitted .issued).permit 63).crew = 7 ∧
      (linked.permit 63).state = .free) ∧
    (∀ st ∈ [WorkerState.emergency, .onDuty], ((watched st).worker 191).state = st ∧
      (watched st).unitNamed ((watched st).worker 191).noteUnit = some 95 ∧ up.unitNamed (some 7) = none) := by
  decide +kernel

theorem witness_EntryIsFinished :
    busy.xif.mode.busOn = true ∧ busy.xif.busPlan = [] ∧ MemoryCanonical busy ∧
    (∃ r : PageRun, r.next < 64 ∧ r.next + 1 < r.count) ∧ (∃ r : PageRun, r.next < 64 ∧ r.count ≤ r.next + 1) ∧
    up.xif.notices < 127 :=
  ⟨by decide, by decide, by unfold MemoryCanonical; decide, ⟨⟨.a, 64, 62, 0⟩, by decide, by decide⟩,
    ⟨⟨.a, 64, 63, 0⟩, by decide, by decide⟩, by decide⟩

/-- Every verb with the first index outside its table; verb codes 0, 21 and 255. -/
theorem witness_BadIndexAndBadVerb :
    (∀ v ∈ verbTable, reached (asked up v.2.1 v.2.2) v.2.1 v.2.2 = true) ∧
    (∀ v ∈ [0, 21, 255], reached (asked up v 0) v 0 = true) := by decide +kernel

/-- Unit 7 with sixteen orders. -/
def fullQueue : State :=
  (List.finRange 16).foldl (fun s i => s.setOrder ⟨i.val, by omega⟩ (order7 .queued)) linked

theorem full_bounded : OrderQueuesBounded fullQueue := by
  have h7 : ∀ o, (fullQueue.order o).state.live = true → (fullQueue.order o).unit = 7 := by decide +kernel
  have hs : ∀ o, (fullQueue.order o).state ≠ .sending := by decide +kernel
  have h16 : (List.finRange 256).countP (fun o => (fullQueue.order o).state.live && (fullQueue.order o).unit == 7) = 16 := by
    decide +kernel
  intro a
  refine ⟨?_, ?_⟩
  · refine Nat.le_trans (List.countP_mono_left fun o _ ho => ?_) (Nat.le_of_eq h16)
    simp only [Bool.and_eq_true] at ho ⊢
    exact ⟨ho.1, by simp [h7 o ho.1]⟩
  · refine Nat.le_trans (Nat.le_of_eq (List.countP_eq_zero.2 fun o _ => ?_)) (Nat.zero_le 1)
    simp [hs o]

theorem held_bound : WorkersBoundOnce (permitted .holding) := by
  have h : ∀ p, ((permitted .holding).permit p).state.isOpen = true → p = 63 := by decide +kernel
  have hw : ∀ w : WorkerIx, w.val ∈ ((permitted .holding).permit 63).workers →
      ((permitted .holding).worker w).openPermit = some 63 := by decide +kernel
  intro p w hp hm
  cases h p hp
  exact hw w hm

theorem witness_StepKeepsTablesSound :
    (∃ s t : State, AddressesDistinct s ∧ OutstandingSound s ∧ (s.unit 95).out = [stepOut] ∧ step s = .next t) ∧
    (∃ s t : State, OrderQueuesBounded s ∧ (s.orderQueue 7).length = 16 ∧ step s = .next t) ∧
    (∃ s t : State, WorkersBoundOnce s ∧ (s.worker 191).openPermit = some 63 ∧ step s = .next t) :=
  let ⟨_, h1⟩ := step_answers given (.frameStart 1)
  let ⟨_, h2⟩ := step_answers fullQueue (.uplinkFrame 1)
  let ⟨_, h3⟩ := step_answers (permitted .holding) (.uplinkFrame 1)
  ⟨⟨queued given _, _, given_addresses,
      ⟨given_outstanding.1, given_outstanding.2, given_outstanding.3, given_outstanding.4⟩, by decide +kernel, h1⟩,
    ⟨queued fullQueue _, _, full_bounded, by decide +kernel, h2⟩,
    ⟨queued (permitted .holding) _, _, held_bound, by decide +kernel, h3⟩⟩

/-! ### Unit verbs -/

/-- A record with an address, for UNIT_REGISTER of context 0. -/
def registering (s : State) (high low : Byte) : State := stored (asked s 1 0) .units 0 [high, low]

/-- The note queue of a permit for unit 1000 not yet registered: something is due when it is (log 19). -/
def awaited (s : State) : State := s.setPermit 63 { permit9 .posted with crew := 1000, headerDue := true }

theorem witness_UnitRegisterAndWorkerOn :
    (reached (asked (up.setUnit 0 unit7) 1 0) 1 0 = true ∧ ((up.setUnit 0 unit7).unit 0).registered = true) ∧
    (reached (registering up 0 0) 1 0 = true ∧ ((registering up 0 0).unitHost 0).address = 0) ∧
    (reached (registering up 3 0xE9) 1 0 = true ∧ ((registering up 3 0xE9).unitHost 0).address = 1001) ∧
    (reached (registering linked 0 7) 1 0 = true ∧ ((registering linked 0 7).unitHost 0).address = 7 ∧
      (linked.unit 0).registered = false ∧ (linked.unit 95).address = 7) ∧
    (reached (registering linked 3 0xE8) 1 0 = true ∧ ((registering linked 3 0xE8).unitHost 0).address = 1000 ∧
      linked.unitOf 1000 = none) ∧
    (∀ s ∈ [awaited up, awaited linked], reached (registering s 3 0xE8) 1 0 = true ∧ s.unitOf 1000 = none ∧
      s.permitHolds 1000 = true) ∧
    (∀ c, (up.port c).enabled = false) ∧ (linked.port 1).enabled = true ∧
    (let s := stored (asked linked 5 191) .workers (32 * 191) [0, 7]
     (reached (asked (watched .silent) 5 191) 5 191 = true ∧ ((watched .silent).worker 191).state ≠ .off) ∧
     (reached (asked linked 5 191) 5 191 = true ∧ (linked.worker 191).state = .off ∧
       linked.unitOf ((asked linked 5 191).workerHost 191).address = none) ∧
     (reached s 5 191 = true ∧ (s.worker 191).state = .off ∧ (s.unit 95).registered = true ∧
       (s.unit 95).address = (s.workerHost 191).address)) := by decide +kernel

theorem witness_UnitRelease :
    MemoryCanonical (asked linked 2 95) ∧
    (reached (asked up 2 95) 2 95 = true ∧ (up.unit 95).registered = false) ∧
    (reached (asked readback 2 95) 2 95 = true ∧ (readback.unit 95).registered = true ∧
      (readback.unit 95).inFlight ≠ none) ∧
    (reached (asked linked 2 95) 2 95 = true ∧ (linked.unit 95).registered = true ∧ linked.unitInUse 95 = false) ∧
    (let s := given.setPermit 63 { permit9 .closed with inFlight := 1 }
     reached (asked s 2 95) 2 95 = true ∧ s.unitInUse 95 = false ∧ (s.unit 95).out = [stepOut]) := by
  unfold MemoryCanonical; decide +kernel

theorem witness_UnitResync :
    (reached (asked up 3 95) 3 95 = true ∧ (up.unit 95).registered = false) ∧
    (reached (asked (resyncing 0) 3 95) 3 95 = true ∧ ((resyncing 0).unit 95).resync = .running) ∧
    (reached (asked linked 3 95) 3 95 = true ∧ (linked.unit 95).resync ≠ .running ∧
      (linked.unit 95).reach ≠ .unknown) := by decide +kernel

theorem witness_UnitRekey :
    (reached (asked up 4 95) 4 95 = true ∧ (up.unit 95).registered = false) ∧
    (reached (asked readback 4 95) 4 95 = true ∧ (readback.unit 95).inFlight ≠ none) ∧
    (reached (asked linked 4 95) 4 95 = true ∧ (linked.unit 95).registered = true ∧
      (linked.unit 95).inFlight = none) := by decide +kernel

/-! ### Worker verbs -/

/-- The eight states of a worker, and a bound unit that is not registered. -/
theorem witness_WorkerOff :
    (∀ st ∈ [WorkerState.onDuty, .prompted, .silent, .overdue, .escalated, .emergency, .acknowledged, .off],
      reached (asked (watched st) 6 191) 6 191 = true ∧ ((watched st).worker 191).state = st) ∧
    (watched .prompted).unitNamed (some 7) = some 95 ∧ up.unitNamed (some 7) = none := by decide +kernel

theorem witness_AlarmAck :
    (∀ st ∈ [WorkerState.overdue, .escalated, .emergency, .silent],
      reached (asked (watched st) 7 191) 7 191 = true ∧ ((watched st).worker 191).state = st) ∧
    (watched .overdue).unitNamed ((watched .overdue).worker 191).noteUnit = some 95 ∧
    ((watched .overdue).setUnit 95 .unregistered).unitNamed ((watched .overdue).worker 191).noteUnit = none := by
  decide +kernel

theorem witness_AlarmClear :
    (∀ st ∈ [WorkerState.acknowledged, .emergency],
      reached (asked (watched st) 8 191) 8 191 = true ∧ ((watched st).worker 191).state = st) ∧
    (worker7 .acknowledged).dutyBefore = true ∧
    reached (asked (linked.setWorker 191 { worker7 .acknowledged with dutyBefore := false }) 8 191) 8 191 = true := by
  decide +kernel

/-! ### Order verbs -/

/-- An order record of unit 7 with a permit number and a body length, for ORDER_POST of order 255. -/
def posting (s : State) (permit high low : Byte) : State :=
  stored (asked s 9 255) .orders (512 * 255) [0, 7, 3, permit, 1, 0, 0, 0, high, low]

/-- Order 255 QUEUED first, behind it an order of its priority set up later and one of a lower priority. -/
def queueOf7 : State :=
  ([(255, 2, 5), (0, 2, 6), (1, 1, 1)] : List (OrderIx × Nat × Nat)).foldl
    (fun s (o, priority, stamp) => s.setOrder o { order7 .queued with priority := priority, stamp := stamp }) linked

/-- The start of sending: with no port in service, with an order SENDING, with none waiting, and with three that wait. -/
theorem witness_OrderPost_startSending :
    (∀ c, (up.port c).enabled = false) ∧
    (((ordered .sending).order 255).state = .sending ∧ ((ordered .sending).order 255).unit = 7) ∧
    (∀ q, ¬ ((linked.order q).state = .queued ∧ (linked.order q).unit = 7)) ∧
    ((queueOf7.port 1).enabled = true ∧ (∀ q, (queueOf7.order q).state ≠ .sending) ∧
      ((queueOf7.order 255).state = .queued ∧ (queueOf7.order 255).unit = 7) ∧
      ∀ q, ((queueOf7.order q).state = .queued ∧ (queueOf7.order q).unit = 7) → q ≠ 255 →
        (queueOf7.order q).priority < (queueOf7.order 255).priority ∨
          ((queueOf7.order q).priority = (queueOf7.order 255).priority ∧
            (queueOf7.order 255).stamp < (queueOf7.order q).stamp)) := by decide +kernel

theorem witness_OrderPost :
    (reached (asked (ordered .held) 9 255) 9 255 = true ∧ ((ordered .held).order 255).state.live = true) ∧
    (reached (posting linked 0xFF 1 0xE1) 9 255 = true ∧ ((posting linked 0xFF 1 0xE1).orderHost 255).bodyLen = 481) ∧
    (((posting linked 64 1 0xE0).orderHost 255).permit = some 64) ∧
    (reached (posting up 0xFF 1 0xE0) 9 255 = true ∧ up.unitOf 7 = none) ∧
    (reached (posting linked 63 1 0xE0) 9 255 = true ∧ linked.permitStateOf 63 = .free) ∧
    (reached (posting fullQueue 0xFF 1 0xE0) 9 255 = true ∧ (fullQueue.orderQueue 7).length = 16) ∧
    (reached (posting (permitted .posted) 63 1 0xE0) 9 255 = true ∧
      (permitted .posted).permitStateOf 63 = .posted) ∧
    (reached (posting (permitted .holding) 63 1 0xE0) 9 255 = true ∧
      (permitted .holding).permitStateOf 63 = .holding ∧
      ((posting (permitted .holding) 63 1 0xE0).orderHost 255).bodyLen = 480 ∧
      ((permitted .holding).order 255).state.live = false) := by decide +kernel

theorem witness_OrderWithdraw :
    (∀ st ∈ [OrderState.queued, .held, .sending, .free, .delivered],
      reached (asked (ordered st) 10 255) 10 255 = true ∧ ((ordered st).order 255).state = st) ∧
    (order7 .sending).cancelling = none ∧
    (let s := linked.setOrder 255 { order7 .sending with cancelling := some .failed }
     reached (asked s 10 255) 10 255 = true ∧ (s.order 255).cancelling ≠ none) ∧
    ((ordered .queued).order 255).state ≠ .sending ∧
    (let z := order7 .sending
     let last : OrderCtx → Prop := fun x => x.segCount = some (x.acked + 1) ∧ x.cancelling = none
     z.state = .sending ∧ ¬ last z ∧
     (∀ wanted ∈ [true, false],
       let x := { z with acked := 2, replyWanted := wanted }
       last x ∧ x.earlyReply = none ∧ x.replyWanted = wanted) ∧
     (∀ d ∈ [Decision.accept, .decline],
       let x := { z with acked := 2, earlyReply := some { decision := d, reason := 9 } }
       last x ∧ x.earlyReply = some { decision := d, reason := 9 }) ∧
     (∀ e ∈ [EndState.withdrawn, .failed], { z with cancelling := some e }.cancelling = some e)) := by decide +kernel

/-- A bulletin waiting eight times on channel 1. -/
def eightBulletins : State :=
  let e : TxEntry := { kind := .bulletin, unit := none, ref := 4, attempt := 0, payload := [0, 0], started := false }
  linked.setPort 1 { idlePort with queue := List.replicate 8 e }

theorem witness_Bulletin :
    (reached (asked (ordered .held) 11 255) 11 255 = true ∧ ((ordered .held).order 255).state.live = true) ∧
    (let s := stored (asked linked 11 255) .orders (512 * 255 + 8) [0, 63]
     reached s 11 255 = true ∧ 62 < (s.orderHost 255).bodyLen) ∧
    (reached (asked up 11 255) 11 255 = true ∧ ∀ c, (up.port c).enabled = false) ∧
    (reached (asked eightBulletins 11 255) 11 255 = true ∧ eightBulletins.bulletinChans 0 0 = [1] ∧
      eightBulletins.bulletinsWaiting 1 = 8) ∧
    (let s := stored (asked linked 11 255) .orders (512 * 255 + 8) [0, 62]
     reached s 11 255 = true ∧ (s.orderHost 255).bodyLen = 62 ∧ s.xif.commonLimit = 64 ∧
       s.bulletinChans 0 0 = [1] ∧ s.bulletinsWaiting 1 = 0) := by decide +kernel

/-! ### Permit verbs -/

/-- A permit record for PERMIT_ISSUE of permit 63. -/
def issuing (s : State) (record : List Byte) : State := stored (asked s 12 63) .permits (256 * 63) record

theorem witness_PermitIssue :
    (reached (asked (permitted .holding) 12 63) 12 63 = true ∧ ((permitted .holding).permit 63).state.isOpen = true) ∧
    (let s := linked.setPermit 63 { permit9 .closed with inFlight := 1 }
     reached (asked s 12 63) 12 63 = true ∧ (s.permit 63).inFlight ≠ 0) ∧
    (reached (issuing linked []) 12 63 = true ∧ ((issuing linked []).permitHost 63).malformed = true) ∧
    (reached (issuing up permitRecord) 12 63 = true ∧ up.unitOf 7 = none ∧
      ((issuing up permitRecord).permitHost 63).malformed = false) ∧
    (reached (issuing linked permitRecord) 12 63 = true ∧ linked.workerConflict 63 [191] = true) ∧
    (reached (issuing (watched .onDuty) permitRecord) 12 63 = true ∧
      ((issuing (watched .onDuty) permitRecord).permitHost 63).workers = [191] ∧
      (watched .onDuty).workerConflict 63 [191] = false ∧
      ((issuing (watched .onDuty) permitRecord).permitHost 63).malformed = false ∧
      (watched .onDuty).unitOf 7 = some 95) ∧
    (∀ st ∈ [PermitState.posted, .issued, .closed], ((permitted st).permit 63).state = st) ∧
    (∀ st ∈ [PermitState.active, .restoring],
      let x := { permit9 st with steps := [stepOn 17 0 .done, stepOn 17 0 .sent] }
      x.state = st ∧ x.current = 2 ∧ x.stepState 2 = .sent ∧ x.stepState 1 ≠ .sent) := by decide +kernel

theorem witness_PermitCancel :
    (∀ st ∈ [PermitState.posted, .issued, .active, .holding],
      reached (asked (permitted st) 13 63) 13 63 = true ∧ ((permitted st).permit 63).state = st) ∧
    (∀ st ∈ [StepState.due, .interlocked, .sent],
      ({ permit9 .active with steps := [stepOn 17 0 .done, stepOn 17 0 st] } : PermitCtx).stepState 2 = st) ∧
    (permit9 .active).current = 2 := by decide +kernel

/-- The worker of permit 63 unaccounted for. -/
def unaccounted (st : PermitState) : State := (permitted st).setWorker 191 (worker7 .acknowledged)

theorem unaccounted_someone (st : PermitState) :
    SomeoneUnaccounted (unaccounted st) (permit9 st).workers :=
  ⟨191, List.mem_singleton.2 rfl, 191, by decide, by rw [unaccounted, State.setWorker_worker_same]; decide⟩

theorem witness_PermitSurrenderLocal :
    (reached (asked (permitted .surrenderPending) 14 63) 14 63 = true) ∧
    (reached (asked (unaccounted .holding) 14 63) 14 63 = true ∧ ((unaccounted .holding).permit 63).state = .holding) ∧
    (reached (asked (permitted .holding) 14 63) 14 63 = true ∧ ((permitted .holding).permit 63).state = .holding ∧
      (permitted .holding).unaccountedOn 63 = none) := by decide +kernel

theorem witness_PermitAcceptSurrender :
    (reached (asked (permitted .holding) 15 63) 15 63 = true) ∧
    (reached (asked (unaccounted .surrenderPending) 15 63) 15 63 = true ∧
      ((unaccounted .surrenderPending).permit 63).state = .surrenderPending) ∧
    (reached (asked (permitted .surrenderPending) 15 63) 15 63 = true ∧ (permit9 .surrenderPending).h ≠ 4 ∧
      ((permitted .surrenderPending).permit 63).state = .surrenderPending ∧
      (permitted .surrenderPending).unaccountedOn 63 = none) ∧
    (let s := (permitted .surrenderPending).setPermit 63 { permit9 .surrenderPending with n := 2 }
     reached (asked s 15 63) 15 63 = true ∧ (s.permit 63).h = (s.permit 63).n) := by decide +kernel

theorem witness_PermitRefuseSurrender :
    ∀ st ∈ [PermitState.holding, .surrenderPending],
      reached (asked (permitted st) 16 63) 16 63 = true ∧ ((permitted st).permit 63).state = st := by decide +kernel

/-! ### Channel verbs -/

/-- The settings block of channel 3: rate 4800, preamble 200, a TOT, D 25, C_max 80. -/
def setting (s : State) (high low : Byte) : State :=
  stored (asked s 17 3) .config (0x010 + 48) [0, 0, 200, high, low, 25, 0, 80]

theorem witness_ChannelSet :
    (reached (asked linked 17 1) 17 1 = true ∧ (linked.port 1).state ≠ .off) ∧
    (reached (setting linked 1 0x2C) 17 3 = true ∧ usableLmax ((setting linked 1 0x2C).channelSettings 3).1.lmax = false) ∧
    (let s := (setting linked 1 0x90).setOrder 255 { order7 .sending with segSize := some 60 }
     reached s 17 3 = true ∧ s.belowSegments (s.channelSettings 3).1.lmax = true) ∧
    (reached (setting linked 1 0x90) 17 3 = true ∧ (linked.port 3).state = .off ∧
      ((setting linked 1 0x90).channelSettings 3).1.lmax = some 46 ∧ linked.largestSegment = 0) := by decide +kernel

/-- Channel 3 OFF with settings and an L_max. -/
def configured (s : State) (lmax : Option Nat) : State :=
  s.setPort 3 { Port.off false .unkey with settings := some site1, lmax := lmax }

/-- Channel 1 in a state. -/
def portIn (st : PortState) : State := linked.setPort 1 { idlePort with state := st }

/-- Channel 1 TRANSMITTING with its watchdog at a time. -/
def onAir (t0 : Nat) : State := linked.setPort 1 { idlePort with state := .transmitting, watchdog := some t0 }

/-- Channel 1 TRANSMITTING and closing. -/
def closingPort : State := linked.setPort 1 { idlePort with state := .transmitting, closing := true }

theorem witness_ChannelService :
    ((reached (asked linked 18 1) 18 1 = true ∧ (linked.port 1).state ≠ .off) ∧
     (reached (asked (configured linked (some 23)) 18 3) 18 3 = true ∧ reached (asked linked 18 3) 18 3 = true ∧
       (linked.port 3).lmax = none) ∧
     (reached (asked (configured (ordered .sending) (some 45)) 18 3) 18 3 = true ∧
       (ordered .sending).largestSegment = 46) ∧
     (reached (asked (configured linked (some 24)) 18 3) 18 3 = true ∧ linked.largestSegment = 0)) ∧
    ((∀ st ∈ [PortState.fault, .off, .idle, .receiving, .transmitting],
       reached (asked (portIn st) 19 1) 19 1 = true ∧ ((portIn st).port 1).state = st) ∧
     (idlePort.closing = false ∧ reached (asked closingPort 19 1) 19 1 = true)) ∧
    ((linked.port 1).state.inService = true ∧ (up.port 1).state.inService = false ∧
      (closingPort.port 1).state = .transmitting ∧ (linked.port 1).state ≠ .transmitting ∧
      ((onAir 90300000).port 1).state = .transmitting ∧ ((onAir 90300000).port 1).watchdog = some 90300000) ∧
    ((∀ c, (up.port c).enabled = false) ∧ (linked.port 1).enabled = true ∧ (linked.port 1).lmax = some 46) := by
  decide +kernel

theorem witness_ChannelReset :
    ∀ st ∈ [PortState.fault, .off, .idle, .receiving, .transmitting],
      reached (asked (portIn st) 20 1) 20 1 = true ∧ ((portIn st).port 1).state = st := by decide +kernel

/-! ### Part-wide commands and registers -/

theorem witness_ResetAndPowerOn :
    MemoryCanonical readback ∧ (readback.unit 95).inFlight ≠ none ∧ readback.xif.mode = .running ∧
    State.reset.xif.mode ≠ .running := by unfold MemoryCanonical; decide +kernel

/-- A HALTED part over the records of unit 7, of permit 63 in HOLDING with worker 191, of a second such permit when it is
another, and of order 255, DELIVERED. -/
def recorded (second : Nat) : State :=
  let s := { State.reset with xif := { Xif.reset with xbase := 1 } }
  let s := stored (stored s .units (64 * 95) [0, 7]) .units (64 * 95 + 0x0F) [0x80]
  let s := [63, second].foldl (fun s p =>
    stored (stored s .permits (256 * p) (permitRecord.take 32)) .permits (256 * p + 0xA0) [4]) s
  stored s .orders (512 * 255) [0, 7, 3, 0xFF, 1, 0, 0, 0, 0, 3, 4]

theorem witness_StartCommand :
    let s := { State.reset with xif := { Xif.reset with xbase := 1 } }
    up.xif.mode ≠ .halted ∧ State.reset.xif.mode = .halted ∧ State.reset.xif.xbase = 0 ∧
    s.xif.mode = .halted ∧ s.xif.xbase ≠ 0 ∧ s.xif.busPlan = [] ∧
    (∀ p : PermitIx, (PermitState.ofNum (s.field .permits (256 * p.val + 0xA0) 1)).isOpen = false) ∧
    (∀ b ∈ [0, 62],
      (recorded b).field .permits (256 * 63 + 0xA0) 1 = 4 ∧ (recorded b).field .permits (256 * 63 + 0x0E) 1 = 191 ∧
      (recorded b).field .permits (256 * b + 0xA0) 1 = 4) ∧
    (∀ p : PermitIx, p ≠ 63 → (recorded 63).field .permits (256 * p.val + 0xA0) 1 = 0) ∧
    (recorded 63).field .units (64 * 95) 2 = 7 ∧ (recorded 63).field .orders (512 * 255 + 0x00A) 1 = 4 ∧
    ((recorded 63).xif.mode = .halted ∧ (recorded 63).xif.xbase ≠ 0 ∧ (recorded 63).xif.busPlan = []) := by
  decide +kernel

theorem witness_HaltCommand :
    (up.xif.mode = .running ∧ up.xif.waiting = none) ∧ busy.xif.waiting = some (.b, 64) ∧
    State.reset.xif.mode = .halted ∧ (up.enterFaulted .noBase).xif.mode = .faulted := by decide +kernel

/-- HALTING with no page in progress. -/
def halting : State := { linked with xif := { linked.xif with mode := .halting, consuming := none } }

theorem witness_HaltCompletes :
    halting.xif.busPlan = [] ∧ MemoryCanonical halting ∧ up.xif.mode ≠ .halting ∧ halting.xif.mode = .halting ∧
    halting.xif.consuming = none ∧ (∀ c, (halting.port c).state ≠ .transmitting) ∧
    (sending.port 1).state = .transmitting ∧
    (∀ n ∈ [126, 127], ({ halting.xif with notices := n } : Xif).notices = n ∧ (n < 127 ∨ 127 ≤ n)) := by
  unfold MemoryCanonical; decide +kernel

theorem witness_RegisterWrites :
    State.reset.xif.mode = .halted ∧ up.xif.mode ≠ .halted ∧ ControlRegister.carriesNoCommand .xctl 0 = true ∧
    ControlRegister.carriesNoCommand .note 0xFFFFFFFE = true := by decide +kernel

theorem witness_PostHandover :
    (up.xif.mode = .running ∧ up.xif.page .b = .host ∧ 64 ≤ 64) ∧ up.xif.consuming ≠ none ∧
    halting.xif.consuming = none ∧ up.xif.page .a = .part := by decide

theorem witness_TakeAndNoteRead :
    State.reset.xif.mode = .halted ∧ (up.xif.mode ≠ .halted ∧ up.xif.mode ≠ .faulted ∧ up.xif.busPlan = []) ∧
    up.xif.pending = 0 ∧ (0x80#8).getLsbD 7 = true ∧ (∀ j, j < 7 → (0x80#8).getLsbD j = false) := by decide

theorem witness_PeriodicStatus :
    linked.xif.clockOn = true ∧ linked.xif.mode.busOn = true ∧ linked.xif.busPlan = [] ∧ MemoryCanonical linked ∧
    (linked.unit 95).registered = true := by unfold MemoryCanonical; decide +kernel

theorem witness_BusAccessTimeout : up.xif.mode.busOn = true ∧ up.xif.busPlan = [] := by decide

/-! ### Modems, ports and timers -/

theorem witness_CarrierEvents :
    (∀ st ∈ [PortState.idle, .transmitting, .off, .fault], ((portIn st).port 1).state = st) ∧
    idlePort.carrier = false ∧
    (∀ st ∈ [PortState.receiving, .transmitting, .off], ∀ b ∈ [true, false],
      let p := { idlePort with state := st, carrier := true, stuck := b }
      ((linked.setPort 1 p).port 1).carrier = true ∧ ((linked.setPort 1 p).port 1).stuck = b) := by decide +kernel

theorem witness_ReceiveBuffer :
    let f : RxFrame := { bytes := [], passed := true }
    idlePort.state.inService = true ∧ (Port.off false .unkey).state.inService = false ∧ [f, f, f].length < 4 ∧
    4 ≤ [f, f, f, f].length ∧ (∀ g ∈ [f], g.passed = true) ∧
    ((heard linked checkin).port 1).rx = [{ bytes := checkin, passed := true }] := by decide +kernel

theorem witness_TxDone :
    (linked.port 1).state ≠ .transmitting ∧ (sending.port 1).state = .transmitting ∧
    ((sending.port 1).queue.find? fun e => e.started).map TxEntry.ref = some 4 ∧
    FrameKind.due .permitNote = none ∧ (sending.unit 95).registered = true ∧
    ((sending.unit 95).out.find? fun o => o.ref == 4).map OutEntry.repeatMark = some false ∧
    (sending.unit 95).resync = .no ∧ (sending.unit 95).reach = .reachable ∧
    (sending.port 1).settings = some site1 ∧ (sending.unit 95).current = some 1 ∧
    ((sending.unit 95).out.map OutEntry.ref).Nodup ∧
    (∀ r ∈ [Reach.reachable, .searching], ∀ q ∈ [ResyncPending.no, .wanted, .running],
      let x : UnitCtx := { sending.unit 95 with
        reach := r, resync := q, out := (sending.unit 95).out.map fun o => { o with repeatMark := true } }
      x.reach = r ∧ x.resync = q ∧ (x.out.find? fun o => o.ref == 4).map OutEntry.repeatMark = some true) ∧
    (∀ kind ∈ [FrameKind.resync, .poll, .prompt, .alarmNote, .reportDown], ∀ x ∈ [unit7, (resyncing 0).unit 95,
        { (probed 1).unit 95 with probeRef := some 4 }],
      let e : TxEntry := { kind := kind, unit := some 95, ref := 4, attempt := 0, payload := [], started := true }
      let s := (linked.setPort 1 { idlePort with state := .transmitting, queue := [e] }).setUnit 95 x
      ((s.port 1).queue.find? fun e => e.started).map TxEntry.kind = some kind ∧ (s.unit 95).registered = true ∧
        (s.unit 95).birth ≤ 4 ∧ ∀ o ∈ (s.unit 95).out, o.ref ≠ 4) ∧
    ((resyncing 0).unit 95).resync = .running ∧ ((probed 1).unit 95).reach = .searching := by
  decide +kernel

theorem witness_CreditSlotExpiry :
    idlePort.state.inService = true ∧ idlePort.slotTimer = some 90005000 ∧ idlePort.settings = some site1 ∧
    idlePort.credit = site1.cmax ∧ (7 : Int) ≠ site1.cmax ∧ 74 + site1.duty < 100 ∧ 100 ≤ 75 + site1.duty := by decide

theorem witness_CarrierStuckExpiry :
    let p : Port := { idlePort with state := .receiving, carrier := true, stuckTimer := some 95000000 }
    p.state.inService = true ∧ p.carrier = true ∧ p.stuckTimer = some 95000000 ∧ p.settings = some site1 ∧
    (linked.setPort 1 p).xif.mode.busOn = true ∧ (linked.setPort 1 p).xif.busPlan = [] ∧
    MemoryCanonical (linked.setPort 1 p) := by unfold MemoryCanonical; decide +kernel

/-- A PROMPT for worker 191 waiting on channel 1, at a credit. -/
def promptWaiting (credit : Int) : State :=
  let e : TxEntry := { kind := .prompt, unit := some 95, ref := 4, attempt := 0, payload := [], started := false }
  (linked.setPort 1 { idlePort with queue := [e], credit := credit }).modDue 95 fun d => { d with prompt := [191] }

/-- At a credit of 51 - 80 the PROMPT may start, and one below it may not (R24). -/
theorem witness_FrameStart :
    (linked.port 1).settings = some site1 ∧ (sending.port 1).mayStart = false ∧
    (∀ credit ∈ [-29, -30],
      ((promptWaiting credit).port 1).mayStart = true ∧
      (((promptWaiting credit).port 1).candidate .running).map TxEntry.ref = some 4) ∧
    (((promptWaiting (-29)).port 1).candidate .running).bind (promptWaiting (-29)).payloadNow = some [1, 191] ∧
    site1.slots 2 = 51 ∧ (51 : Int) - 80 ≤ -29 ∧ ¬ (51 : Int) - 80 ≤ -30 := by decide +kernel

/-- A PROMPT goes ahead of an older POLL, and alone in FAULTED; one with nothing due may start too, and is then removed. -/
theorem witness_FrameStart_candidates :
    let e : FrameKind → Nat → TxEntry := fun kind ref =>
      { kind := kind, unit := some 95, ref := ref, attempt := 0, payload := [], started := false }
    let p := { idlePort with queue := [e .poll 4, e .prompt 5, e .prompt 6] }
    let s := linked.setPort 1 p
    (p.candidate .running).map TxEntry.ref = some 5 ∧ (p.candidate .faulted).map TxEntry.ref = some 5 ∧
    p.candidate .halting = none ∧ ({ idlePort with queue := [e .poll 4] } : Port).candidate .faulted = none ∧
    (s.unit 95).due.prompt = [] ∧ site1.slots 0 = 50 ∧ (50 : Int) - 80 ≤ idlePort.credit ∧
    ((run (.frameStart 1) s).port 1).queue = [] ∧
    (∀ n ∈ [16, 17], ((List.finRange 192).take n).drop 16 = [] ↔ n = 16) := by decide +kernel

/-- Permit 63 in a state with things to give, its section held a number of times. -/
def giving (st : PermitState) (header : Bool) (notes : List Note) (steps : List Step) (holds : Nat) : State :=
  (linked.setPermit 63 { permit9 st with headerDue := header, notes := notes, steps := steps, current := 1 }).setHold 17
    holds

theorem linked_sends : ∀ q, (linked.order q).state ≠ .sending := by decide +kernel

theorem sends_alone (x : OrderCtx) (q : OrderIx) (h : ((linked.setOrder 255 x).order q).state = .sending) : q = 255 := by
  rw [State.setOrder_order] at h
  split at h
  · rename_i e
    exact e.symm
  · exact absurd h (linked_sends q)

/-- Each thing a permit gives, at the highest permit index with no other permit of the crew; each state of an order of
the crew, at its first segment, at the end of its segments and with its ORDER_CANCEL due and given. -/
theorem witness_PullGives :
    (linked.mayPull 95 = true ∧ (linked.unit 95).current = some 1 ∧ up.mayPull 95 = false) ∧
    (let notes : List Note := [{ id := 1, code := .cancelled, step := 0, subject := 0, given := true },
       { id := 2, code := .cancelled, step := 0, subject := 0, given := false }]
     ∀ s ∈ [giving .posted true [] [] 0, giving .active false notes [] 0,
         giving .active false [] [stepOn 17 0 .due] 1, giving .active false [] [stepOn 17 1 .due] 0,
         giving .restoring false [] [stepOn 17 1 .due] 1],
       (s.permit 63).crew = 7 ∧ ∀ q : PermitIx, q < 63 → (s.permit q).crew ≠ 7) ∧
    ((giving .restoring false [] [stepOn 17 1 .due] 1).permit 63).step 1 = some (stepOn 17 1 .due) ∧
    ((giving .restoring false [] [stepOn 17 1 .due] 1).hold 17 = 1) ∧
    (∀ p, (linked.permit p).crew ≠ 7) ∧
    (let z := order7 .sending
     ∀ x ∈ [z, { z with nextSeg := 3 }, { z with permit := some 63 }, { z with cancelling := some .failed, cancel := .due },
         { z with cancelling := some .withdrawn, cancel := .pulled }],
       let s := linked.setOrder 255 x
       (s.order 255).state = .sending ∧ (s.order 255).unit = 7 ∧ s.permitStateOf 63 = .free) := by decide +kernel

/-- The same states have no other SENDING order, and the linked part none at all. -/
theorem witness_PullGives_alone :
    (∀ o, (linked.order o).state ≠ .sending) ∧
    ∀ x q, ((linked.setOrder 255 x).order q).state = .sending → q = 255 := ⟨linked_sends, sends_alone⟩

theorem witness_UplinkFrame :
    let s := heard (watched .onDuty) checkin
    let h := Header.parse checkin
    (s.port 1).rx = { bytes := checkin, passed := true } :: [] ∧ s.xif.mode.active = true ∧
    up.unitOf h.address = none ∧ s.unitOf h.address = some 95 ∧ h.kindCode = 16 ∧ h.reportValid = false ∧
    indexIn 192 (byteAt (payloadOf checkin) 0).toNat = some 191 ∧ (s.port 1).enabled = true ∧
    (s.unit 95).reach = .reachable ∧ (s.unit 95).current = some 1 ∧ (s.unit 95).resync = .no ∧
    (s.unit 95).lockout = false ∧ (s.unit 95).awaiting = none ∧ h.ns = (s.unit 95).vr ∧
    (s.worker 191).bound = some (s.unit 95).address ∧ (s.worker 191).state = .onDuty ∧
    (∀ v, (s.worker v).state = .silent → (s.worker v).bound ≠ some (s.unit 95).address) ∧
    (∀ x ∈ [{ unit7 with lockout := true }, { unit7 with resync := .running }, { unit7 with awaiting := some 0 }],
      (s.setUnit 95 x).unit 95 = x ∧ x.resync ≠ .wanted ∧ x.reach = .reachable) ∧
    (∀ ns ∈ [1, 7, 8, 223, 224, 255], (Header.parse (sentUp 16 ns false false false false 0 [191])).ns.toNat = ns) ∧
    s.ule.ahead = 7 ∧ 256 - s.ule.behind = 224 ∧
    (let b := sentUp 19 0 false false false false 0 [255, 2, 9]
     (Header.parse b).kindCode = 19 ∧ indexIn 256 (byteAt (payloadOf b) 0).toNat = some 255 ∧
     Decision.ofNum (byteAt (payloadOf b) 1).toNat = some .decline) ∧
    (∀ st ∈ [OrderState.delivered, .sending, .held],
      ((heard (ordered st) checkin).order 255).state = st ∧ ((heard (ordered st) checkin).order 255).unit = 7) ∧
    (∀ st ∈ [WorkerState.off, .onDuty, .prompted, .overdue, .escalated, .emergency, .acknowledged],
      ∀ bound ∈ [some 7, some 8],
      let v := (watched .onDuty).setWorker 191 { worker7 st with bound := bound }
      (v.worker 191).state = st ∧ st ≠ .silent ∧ (v.worker 191).bound = bound) := by
  decide +kernel

/-- The states in which a frame with no payload meets unit 7: on its channel with an entry outstanding, in each resync
state; on channel 0 before; in each reachability but REACHABLE; and on a channel that is not enabled, another being so. -/
theorem witness_UplinkLink :
    let s := heard (awaitingReply 0) (sentUp 23 0 true true true true 1 [])
    let h := Header.parse (sentUp 23 0 true true true true 1 [])
    let off := heard (linked.setPort 3 idlePort) checkin
    (s.port 1).rx = { bytes := sentUp 23 0 true true true true 1 [], passed := true } :: [] ∧ s.xif.mode.active = true ∧
    s.unitOf h.address = some 95 ∧ h.kindCode = 23 ∧ h.busy = true ∧ h.resend = true ∧ h.lockout = true ∧
    h.reportValid = true ∧ h.nextExpected = 1 ∧
    (∀ v, (s.worker v).state = .silent → (s.worker v).bound ≠ some (s.unit 95).address) ∧
    ((s.port 1).enabled = true ∧ (s.unit 95).reach = .reachable ∧ (s.unit 95).current = some 1 ∧
      (s.unit 95).resync = .no) ∧
    ((0 : BitVec 8) - 0).toNat ≤ ((s.unit 95).vs - (s.unit 95).na).toNat ∧
    ((1 : BitVec 8) - 0).toNat ≤ ((s.unit 95).vs - (s.unit 95).na).toNat ∧
    ¬ ((2 : BitVec 8) - 0).toNat ≤ ((s.unit 95).vs - (s.unit 95).na).toNat ∧
    ((s.unit 95).out.map OutEntry.ref).Nodup ∧
    (Header.parse (sentUp 25 0 false false false false 0 [])).reportValid = false ∧
    (∀ valid ∈ [false, true], (Header.parse (sentUp 24 0 valid false false true 2 [])).kindCode = 24 ∧
      (Header.parse (sentUp 24 0 valid false false true 2 [])).reportValid = valid) ∧
    ((resyncing 0).unit 95).resync = .running ∧ ((resyncing 0).unit 95).reach = .reachable ∧
    (let x := { unit7 with current := some 0 }
     ((s.setUnit 95 x).unit 95).current = some 0 ∧ x.reach = .reachable) ∧
    (∀ r ∈ [Reach.unknown, .searching, .unreachable], ∀ q ∈ [ResyncPending.no, .wanted],
      let x := { unit7 with reach := r, resync := q }
      ((s.setUnit 95 x).unit 95).reach = r ∧ x.due.placedResync = none) ∧
    ((off.setPort 1 { idlePort with state := .off }).port 1).enabled = false ∧ (off.port 3).enabled = true := by
  decide +kernel

theorem witness_EmergencyTakenInEveryState :
    let s := heard (watched .onDuty) emergency
    let h := Header.parse emergency
    (s.port 1).rx = { bytes := emergency, passed := true } :: [] ∧ s.xif.mode.active = true ∧
    s.unitOf h.address = some 95 ∧ h.kindCode = 17 ∧ h.reportValid = false ∧
    indexIn 192 (byteAt (payloadOf emergency) 0).toNat = some 191 ∧
    EmergencyCause.ofNum (byteAt (payloadOf emergency) 1).toNat = some .button ∧ (s.port 1).enabled = true ∧
    (s.unit 95).reach = .reachable ∧ (s.unit 95).current = some 1 ∧ (s.unit 95).resync ≠ .wanted ∧
    (∀ v, (s.worker v).state = .silent → (s.worker v).bound ≠ some (s.unit 95).address) ∧
    (let valid := sentUp 17 0 true true true true 0 [191, 1, 0]
     let r := heard (resyncing 0) valid
     (Header.parse valid).reportValid = true ∧ (r.unit 95).resync = .running ∧ (r.unit 95).reach = .reachable) ∧
    (∀ st ∈ [WorkerState.off, .prompted, .acknowledged, .emergency], ((watched st).worker 191).state = st ∧
      (watched st).unitNamed ((watched st).worker 191).bound = some 95) ∧
    (worker7 .acknowledged).origin = .none ∧
    ({ worker7 .acknowledged with origin := .emergency } : WorkerCtx).inEmergency = true ∧
    (worker7 .emergency).position ≠ some (0, 1) := by decide +kernel

theorem witness_CounterWriteBack :
    readback.xif.busPlan = [] ∧ MemoryCanonical readback ∧ State.reset.xif.mode ≠ .running ∧
    readback.xif.mode = .running ∧ (linked.unit 95).inFlight = none ∧
    ((readback.unit 95).inFlight.map fun f => (f.kind, f.stray, indexIn 64 f.permit)) =
      some (.readback, false, some 63) ∧
    (readback.permit 63).state = .issued ∧ (readback.unit 95).codeQueue = [] ∧ (readback.permit 63).steps ≠ [] ∧
    (readback.unit 95).reach ≠ .unknown ∧
    (∀ st ∈ [PermitState.posted, .active, .holding],
      ((confirmed .readback 0 255 (permit9 st)).permit 63).state = st) ∧
    (let f := ((confirmed .stepDone 2 191 (permit9 .active)).unit 95).inFlight
     f.map (fun f => (f.kind, f.step, f.worker, f.stray)) = some (.stepDone, 2, 191, false) ∧ indexIn 192 191 = some 191) ∧
    (let sent := [stepOn 17 0 .done, stepOn 17 0 .sent, stepOn 17 0 .pending, stepOn 17 1 .pending]
     ((confirmed .stepDone 2 191 { permit9 .active with steps := sent }).worker 191).state = .onDuty ∧
     ({ permit9 .active with steps := sent } : PermitCtx).stepState 2 = .sent ∧ (permit9 .active).h = 2 ∧
     ({ permit9 .active with steps := sent, h := 3 } : PermitCtx).h ≠ 2 ∧
     ({ permit9 .restoring with steps := sent, n := 2 } : PermitCtx).n = 2 ∧
     ({ permit9 .restoring with steps := sent } : PermitCtx).n ≠ 2) ∧
    ({ permit9 .active with steps := [stepOn 17 0 .done, stepOn 17 0 .due] } : PermitCtx).stepState 2 = .due ∧
    (permit9 .active).current ≠ 3 ∧ 255 ∉ (permit9 .active).workers ∧ indexIn 192 255 = none ∧
    (permitted .holding).unaccountedOn 63 = none ∧ (unaccounted .holding).unaccountedOn 63 ≠ none ∧
    (∀ st ∈ [WorkerState.emergency, .onDuty], ((stoodDown st).worker 191).state = st ∧
      ((stoodDown st).worker 191).noteUnit = some ((stoodDown st).unit 95).address ∧
      ((stoodDown st).unit 95).inFlight.map CodedFrame.kind = some .standdown) := by
  unfold MemoryCanonical; decide +kernel

/-- The worker a STEP_DONE names in every state but ON_DUTY, and a stray frame of each kind. -/
theorem witness_CounterWriteBack_others :
    (∀ st ∈ [WorkerState.off, .prompted, .silent, .overdue, .escalated, .emergency, .acknowledged],
      let s := (confirmed .stepDone 2 191 (permit9 .active)).setWorker 191 (worker7 st)
      (s.worker 191).state = st ∧ s.unitNamed (s.worker 191).bound = some 95) ∧
    (worker7 .acknowledged).origin ≠ .emergency ∧
    (let x := readback.unit 95
     ∀ kind ∈ [FrameKind.readback, .stepDone, .surrender],
       ((readback.setUnit 95 { x with inFlight := x.inFlight.map fun f =>
         { f with kind := kind, stray := true } }).unit 95).inFlight.map (fun f => (f.kind, f.stray)) =
           some (kind, true)) := by decide +kernel

theorem witness_LinkTimers :
    (∀ s ∈ [awaitingReply 3, awaitingReply 4, resyncing 3, resyncing 4],
      (s.unit 95).registered = true ∧ (s.unit 95).timer = .running 91500000) ∧
    (((awaitingReply 3).unit 95).out.map OutEntry.retries = [3] ∧ 3 + 1 ≤ (awaitingReply 3).ule.retryLimit) ∧
    (((awaitingReply 4).unit 95).out.map OutEntry.retries = [4] ∧ (awaitingReply 4).ule.retryLimit < 4 + 1 ∧
      ((awaitingReply 4).unit 95).resync = .no ∧ ((awaitingReply 4).unit 95).reach = .reachable) ∧
    ({ unit7 with timer := .running 91500000 } : UnitCtx).out = [] ∧
    ((resyncing 3).unit 95).resync = .running ∧ ((resyncing 3).unit 95).reach ≠ .unknown ∧
    3 + 1 ≤ (resyncing 3).ule.retryLimit ∧ (resyncing 4).ule.retryLimit < 4 + 1 ∧
    ((∀ s ∈ [probed 1, probed 2, lost],
       (s.unit 95).registered = true ∧ (s.unit 95).searchTimer = some 91500000 ∧ s.xif.mode = .running) ∧
     (((probed 1).unit 95).reach = .searching ∧ ((probed 1).unit 95).probe = some 1 ∧
       ((probed 1).unit 95).probesSent < (probed 1).ule.probesPerSite) ∧
     (probed 2).ule.probesPerSite ≤ ((probed 2).unit 95).probesSent ∧ (lost.unit 95).reach = .unreachable ∧
     ((lost.unit 95).searchOrder.find? fun c => (lost.port c).enabled) = some 1 ∧
     (∀ c, (up.port c).enabled = false)) := by decide +kernel

theorem witness_PromptTime :
    let x := { worker7 .onDuty with timer := some 95, deadline := some 395 }
    x.state = .onDuty ∧ x.timer = some 95 ∧ x.deadline ≠ some 95 ∧ up.unitNamed x.bound = none ∧
    linked.unitNamed x.bound = some 95 := by decide +kernel

theorem witness_SupervisionExpiries :
    (∀ st ∈ [WorkerState.onDuty, .prompted, .silent, .overdue, .escalated],
      ((watched st).worker 191).state = st ∧ ((watched st).worker 191).timer = some 90) ∧
    (worker7 .onDuty).deadline = some 90 ∧ (worker7 .onDuty).grace ≠ 0 ∧
    (let s := (watched .onDuty).setUnit 95 { unit7 with lastHeard := some 0 }
     s.unitNamed (some 7) = some 95 ∧ (s.advanceTo (90 * 1000000)).second - 0 ≤ 60 * s.lws.coverage) ∧
    (watched .onDuty).lastHeardOf (some 7) = none ∧ (linked.unit 95).reach = .reachable ∧
    up.unitNamed (some 7) = none ∧
    (∀ kind ∈ [23, 25],
      let bs := sentUp kind 0 false false false false 0 []
      let s := heard (watched .silent) bs
      (s.port 1).rx = { bytes := bs, passed := true } :: [] ∧ (Header.parse bs).kindCode = kind ∧
      s.unitOf (Header.parse bs).address = some 95 ∧ (Header.parse bs).reportValid = false ∧
      (s.worker 191).state = .silent ∧ (s.worker 191).bound = some (s.unit 95).address ∧
      (s.port 1).enabled = true ∧ (s.unit 95).current = some 1 ∧ (s.unit 95).resync ≠ .wanted) := by decide +kernel

theorem witness_OrderExpires :
    ∀ st ∈ [OrderState.queued, .held, .sending],
      ((ordered st).order 255).deadline = some 100 ∧ ((ordered st).order 255).state = st := by decide +kernel

end Sys2Proof.Tests
end

section
/-! PROOFS. The frame check and the header of a field frame (R1, R5, Table 11-1). -/

namespace Sys2Proof.Machine

/-! ## Two bytes, high byte first -/

theorem byteOf_toNat (v : Nat) : (byteOf v).toNat = v % 256 := BitVec.toNat_ofNat ..

theorem beBytes_two (v : Nat) : beBytes 2 v = [byteOf (v / 256), byteOf v] := rfl

theorem beNat_pair (hi lo : Byte) : beNat [hi, lo] = 256 * hi.toNat + lo.toNat := by
  simp [beNat, Nat.mul_comm]

/-- A number below 2^16 is read back from its two bytes. -/
theorem beNat_beBytes_two {v : Nat} (h : v < 65536) : beNat [byteOf (v / 256), byteOf v] = v := by
  rw [beNat_pair, byteOf_toNat, byteOf_toNat]
  omega

/-! ## The check (R5) -/

theorem check_append (bs cs : List Byte) : check (bs ++ cs) = cs.foldl checkByte (check bs) := by
  simp [check, List.foldl_append]

theorem checkBit_eq_ite (reg : BitVec 16) (d : Bool) :
    checkBit reg d = if reg.msb = d then reg <<< 1 else (reg <<< 1) ^^^ 0x1021#16 := by
  simp only [checkBit, bne_iff_ne, ne_eq, ite_not]

theorem checkByte_eq_foldl_range (reg : BitVec 16) (b : Byte) :
    checkByte reg b = (List.range 8).foldl (fun r k => checkBit r (b.getLsbD (7 - k))) reg := rfl

/-- The lowest bit of the register after a data bit tells whether 1021 hex was added. -/
theorem checkBit_low (reg : BitVec 16) (d : Bool) : (checkBit reg d).getLsbD 0 = (reg.msb != d) := by
  rw [checkBit_eq_ite]
  by_cases h : reg.msb = d <;> simp [h]

/-- The register before a data bit is determined by the register after it. -/
theorem checkBit_injective (d : Bool) : Function.Injective fun reg => checkBit reg d := by
  intro r r' (h : checkBit r d = checkBit r' d)
  have hmsb : r.msb = r'.msb := by
    have hlow := congrArg (fun reg => reg.getLsbD 0) h
    simp only [checkBit_low] at hlow
    simpa using hlow
  have hshift : r <<< 1 = r' <<< 1 := by
    simp only [checkBit_eq_ite, hmsb] at h
    split at h
    · exact h
    · exact (BitVec.xor_left_inj _).mp h
  rw [BitVec.msb_eq_decide, BitVec.msb_eq_decide, decide_eq_decide] at hmsb
  have hnat := congrArg BitVec.toNat hshift
  simp only [BitVec.toNat_shiftLeft, Nat.shiftLeft_eq] at hnat
  apply BitVec.eq_of_toNat_eq
  omega

theorem foldl_injective {α β : Type} {f : α → β → α} (h : ∀ b, Function.Injective fun a => f a b) (bs : List β) :
    Function.Injective fun a => bs.foldl f a := by
  induction bs with
  | nil => exact fun _ _ => id
  | cons b bs ih => exact fun _ _ e => h b (ih e)

theorem checkByte_injective (b : Byte) : Function.Injective fun reg => checkByte reg b :=
  foldl_injective (fun i => checkBit_injective (b.getLsbD i)) _

/-- A data bit equal to the register's top bit only shifts. -/
theorem checkBit_own {v : BitVec 16} {k : Nat} {d : Bool} (hk : k < 16) (hd : d = v.getLsbD (15 - k)) :
    checkBit (v <<< k) d = v <<< (k + 1) := by
  have hmsb : (v <<< k).msb = d := by
    rw [hd, BitVec.msb_eq_getLsbD_last, BitVec.getLsbD_shiftLeft]
    have : ¬ 15 < k := by omega
    simp [this]
  rw [checkBit_eq_ite, if_pos hmsb, ← BitVec.shiftLeft_add]

/-- A data byte equal to the register's high byte only shifts. -/
theorem checkByte_own {v : BitVec 16} {b : Byte} (hb : ∀ i < 8, b.getLsbD i = v.getLsbD (8 + i)) :
    checkByte v b = v <<< 8 := by
  have step : ∀ k < 8, checkBit (v <<< k) (b.getLsbD (7 - k)) = v <<< (k + 1) := fun k hk =>
    checkBit_own (by omega) (by rw [hb _ (by omega)]; congr 1; omega)
  have run : ∀ n ≤ 8, (List.range n).foldl (fun r k => checkBit r (b.getLsbD (7 - k))) v = v <<< n := by
    intro n
    induction n with
    | zero => simp
    | succ n ih =>
      intro hn
      rw [List.range_succ, List.foldl_append, ih (by omega)]
      exact step n (by omega)
  rw [checkByte_eq_foldl_range, run 8 (Nat.le_refl _)]

/-- The bits of a word put together from two bytes. -/
theorem append_bytes_getLsbD (hi lo : Byte) (i : Nat) :
    BitVec.getLsbD (w := 16) (hi ++ lo) i = if i < 8 then lo.getLsbD i else hi.getLsbD (i - 8) :=
  BitVec.getLsbD_append

/-- The check is 0 after the two bytes of the register itself, and after no other two. -/
theorem checkByte_checkByte_eq_zero_iff (reg : BitVec 16) (hi lo : Byte) :
    checkByte (checkByte reg hi) lo = 0#16 ↔ reg = hi ++ lo := by
  have own : checkByte (checkByte (hi ++ lo) hi) lo = 0#16 := by
    have hfirst : checkByte (hi ++ lo) hi = (hi ++ lo) <<< 8 := checkByte_own fun i _ => by
      rw [append_bytes_getLsbD]
      simp
    have hsecond : checkByte ((hi ++ lo) <<< 8) lo = ((hi ++ lo) <<< 8) <<< 8 := checkByte_own fun i hi8 => by
      have hi16 : 8 + i < 16 := by omega
      rw [BitVec.getLsbD_shiftLeft, append_bytes_getLsbD]
      simp [hi8, hi16]
    rw [hfirst, hsecond, ← BitVec.shiftLeft_add]
    exact BitVec.shiftLeft_eq_zero (by omega)
  constructor
  · intro h
    exact checkByte_injective hi (checkByte_injective lo (h.trans own.symm))
  · rintro rfl
    exact own

theorem toNat_append_bytes (hi lo : Byte) : (hi ++ lo).toNat = 256 * hi.toNat + lo.toNat := by
  rw [BitVec.toNat_append, ← Nat.shiftLeft_add_eq_or_of_lt lo.isLt, Nat.shiftLeft_eq]
  omega

theorem eq_append_bytes_iff (v : BitVec 16) (hi lo : Byte) :
    v = hi ++ lo ↔ v.toNat = 256 * hi.toNat + lo.toNat := by
  rw [← toNat_append_bytes, BitVec.toNat_inj]

/-- A frame passes when the check over all but its last two bytes is those two, high byte first. -/
theorem checkPasses_iff (body : List Byte) (hi lo : Byte) :
    checkPasses (body ++ [hi, lo]) = true ↔ check body = hi ++ lo := by
  have hlt : 256 * hi.toNat + lo.toNat < 65536 := by
    have := hi.isLt
    have := lo.isLt
    omega
  have hbytes : BitVec.ofNat 16 (beNat [hi, lo]) = hi ++ lo := by
    rw [beNat_pair, eq_append_bytes_iff, BitVec.toNat_ofNat, Nat.mod_eq_of_lt hlt]
  simp [checkPasses, hbytes]

/-- A frame passes exactly when the check over all of it is 0. -/
theorem checkPasses_iff_check_eq_zero (body : List Byte) (hi lo : Byte) :
    checkPasses (body ++ [hi, lo]) = true ↔ check (body ++ [hi, lo]) = 0#16 := by
  rw [checkPasses_iff, check_append]
  exact (checkByte_checkByte_eq_zero_iff _ _ _).symm

/-- The two last bytes of a list that has two. -/
theorem exists_append_pair {bs : List Byte} (h : 2 ≤ bs.length) : ∃ body hi lo, bs = body ++ [hi, lo] := by
  have hlast : (bs.drop (bs.length - 2)).length = 2 := by
    rw [List.length_drop]
    omega
  match e : bs.drop (bs.length - 2), hlast with
  | [hi, lo], _ => exact ⟨bs.take (bs.length - 2), hi, lo, by rw [← e, List.take_append_drop]⟩

/-- The check of a frame the part builds is the last two bytes of it, high byte first. -/
theorem frameBytes_eq (h : Header) (payload : List Byte) :
    frameBytes h payload = h.bytes ++ payload ++
      [byteOf ((check (h.bytes ++ payload)).toNat / 256), byteOf (check (h.bytes ++ payload)).toNat] := rfl

/-- Settles O12: each data bit can be undone, and a register fed its own bits only shifts, so the register is 0 after
the two check bytes exactly when they are its own. -/
theorem checkIsZeroWhenItPasses : Obligations.CheckIsZeroWhenItPasses := by
  refine ⟨rfl, fun bs b => ?_, fun h payload => ?_, fun body hi lo => ?_, fun bs hlen => ?_⟩
  · rw [check_append]
    simp only [List.foldl_cons, List.foldl_nil, checkByte_eq_foldl_range, checkBit_eq_ite]
  · refine ⟨_, _, ?_, frameBytes_eq h payload⟩
    rw [← beNat_pair, beNat_beBytes_two (BitVec.isLt _)]
  · rw [checkPasses_iff, eq_append_bytes_iff]
  · obtain ⟨body, hi, lo, rfl⟩ := exists_append_pair hlen
    exact checkPasses_iff_check_eq_zero body hi lo

/-! ## The header (Table 11-1) -/

theorem Header.bytes_length (h : Header) : h.bytes.length = 10 := rfl

/-- The payload lies between the header's ten bytes and the two of the check. -/
theorem payloadOf_frameBytes (h : Header) (payload : List Byte) : payloadOf (frameBytes h payload) = payload := by
  have hlen : (frameBytes h payload).length = 12 + payload.length := by
    simp [frameBytes_eq, Header.bytes_length]
    omega
  rw [payloadOf, hlen, frameBytes_eq, List.append_assoc, List.drop_left' (Header.bytes_length h)]
  exact List.take_left' (by omega)

theorem bit_lt_two (b : Bool) : bit b < 2 := by cases b <;> decide

theorem testBit_of_div_mod {v n : Nat} {b : Bool} (h : v / 2 ^ n % 2 = bit b) : v.testBit n = b := by
  rw [Nat.testBit_eq_decide_div_mod_eq, h]
  cases b <;> rfl

/-- The first byte of a header gives back its code and flags. -/
theorem kindByte_unpacks {code : Nat} (up expedited sequenced : Bool) (h : code < 32) :
    let v := byteOf (code * 8 + bit up * 4 + bit expedited * 2 + bit sequenced)
    v.toNat / 8 = code ∧ v.getLsbD 2 = up ∧ v.getLsbD 1 = expedited ∧ v.getLsbD 0 = sequenced := by
  have h2 := bit_lt_two up
  have h1 := bit_lt_two expedited
  have h0 := bit_lt_two sequenced
  simp only [BitVec.getLsbD, byteOf_toNat]
  exact ⟨by omega, testBit_of_div_mod (by omega), testBit_of_div_mod (by omega), testBit_of_div_mod (by omega)⟩

/-- Its second and third bytes give back the address, the site and the four report flags. -/
theorem addressWord_unpacks {address site : Nat} (lockout resend busy valid : Bool) (ha : address < 1024)
    (hs : site < 4) :
    let v := address * 64 + site * 16 + bit lockout * 8 + bit resend * 4 + bit busy * 2 + bit valid
    v < 65536 ∧ v / 64 = address ∧ v / 16 % 4 = site ∧
      v.testBit 3 = lockout ∧ v.testBit 2 = resend ∧ v.testBit 1 = busy ∧ v.testBit 0 = valid := by
  have h3 := bit_lt_two lockout
  have h2 := bit_lt_two resend
  have h1 := bit_lt_two busy
  have h0 := bit_lt_two valid
  intro v
  exact ⟨by omega, by omega, by omega, testBit_of_div_mod (by omega), testBit_of_div_mod (by omega),
    testBit_of_div_mod (by omega), testBit_of_div_mod (by omega)⟩

/-- Its last byte gives back the class and the attempt number. -/
theorem classByte_unpacks {cls attempt : Nat} (hc : cls < 4) (ha : attempt < 8) :
    (byteOf (cls * 64 + attempt * 8)).toNat / 64 = cls ∧ (byteOf (cls * 64 + attempt * 8)).toNat / 8 % 8 = attempt := by
  rw [byteOf_toNat]
  omega

/-- Settles O13: each packed byte or word of the header gives back the fields packed in it. -/
theorem headerReadsBack : Obligations.HeaderReadsBack := by
  intro h payload hkind haddr hsite hlen hmark hcls hatt
  refine ⟨?_, payloadOf_frameBytes h payload⟩
  obtain ⟨kindCode, up, expedited, sequenced, address, site, lockout, resend, busy, reportValid, systemCode, ns,
    nextExpected, length, timeMark, cls, attempt⟩ := h
  obtain ⟨k3, k2, k1, k0⟩ := kindByte_unpacks up expedited sequenced hkind
  obtain ⟨wlt, wa, ws, w3, w2, w1, w0⟩ := addressWord_unpacks lockout resend busy reportValid haddr hsite
  obtain ⟨c1, c0⟩ := classByte_unpacks hcls hatt
  have hword := beNat_beBytes_two wlt
  have hmark' := beNat_beBytes_two hmark
  have hlen' : (byteOf length).toNat = length := (byteOf_toNat _).trans (Nat.mod_eq_of_lt hlen)
  simp only [Header.parse, frameBytes_eq, Header.bytes, beBytes_two, byteAt, List.cons_append, List.nil_append,
    List.getD_cons_zero, List.getD_cons_succ, k3, k2, k1, k0, hword, wa, ws, w3, w2, w1, w0, hlen', hmark', c1, c0]

end Sys2Proof.Machine
end

section
/-! PROOFS. The start of a frame: the candidate, what its start spends, takes and leaves, and what the removal of a
candidate that may not start leaves (R2, R14, R24, R28, R29, R43, R69, R137). -/

namespace Sys2Proof.Machine

open Sys2Proof.Safety

/-! ## The candidate (R28, R43) -/

theorem startsClass_iff (m : PartMode) (k : TrafficClass) :
    m.startsClass k = true ↔ m = .running ∨ (m = .faulted ∧ k = .safety) := by
  cases m <;> simp [PartMode.startsClass]

/-- A mode that starts a class starts every higher one. -/
theorem startsClass_higher {m : PartMode} {j k : TrafficClass} (h : m.startsClass k = true) (hjk : k.code < j.code) :
    m.startsClass j = true := by
  rcases (startsClass_iff m k).mp h with rfl | ⟨-, rfl⟩
  · rfl
  · cases j <;> simp [TrafficClass.code] at hjk

/-- The ranking falls, and holds every class. -/
theorem ranking_falls : TrafficClass.ranking.Pairwise fun j k => k.code < j.code := by decide

theorem mem_ranking (k : TrafficClass) : k ∈ TrafficClass.ranking := by cases k <;> decide

/-- Ahead of a class in the ranking stand exactly the higher ones. -/
theorem mem_ranking_ahead {ahead behind : List TrafficClass} {k : TrafficClass}
    (h : TrafficClass.ranking = ahead ++ k :: behind) (j : TrafficClass) : j ∈ ahead ↔ k.code < j.code := by
  have hp := ranking_falls
  rw [h, List.pairwise_append] at hp
  obtain ⟨-, hbehind, hahead⟩ := hp
  constructor
  · exact fun hj => hahead j hj k List.mem_cons_self
  · intro hjk
    have hj := mem_ranking j
    rw [h, List.mem_append, List.mem_cons] at hj
    rcases hj with hj | rfl | hj
    · exact hj
    · omega
    · have := List.rel_of_pairwise_cons hbehind hj
      omega

theorem find_class_eq_some_iff {l : List TxEntry} {k : TrafficClass} {e : TxEntry} :
    (l.find? fun q => q.kind.cls == k) = some e ↔
      e.kind.cls = k ∧ ∃ older younger, l = older ++ e :: younger ∧ ∀ q ∈ older, q.kind.cls ≠ k := by
  simp [List.find?_eq_some_iff_append]

/-- The candidate is the oldest entry of the highest class present, of a class the mode starts. -/
theorem candidate_eq_some_iff (p : Port) (m : PartMode) (e : TxEntry) :
    p.candidate m = some e ↔ m.startsClass e.kind.cls = true ∧ (∀ q ∈ p.queue, q.kind.cls.code ≤ e.kind.cls.code) ∧
      ∃ older younger, p.queue = older ++ e :: younger ∧ ∀ q ∈ older, q.kind.cls ≠ e.kind.cls := by
  unfold Port.candidate
  rw [List.findSome?_eq_some_iff]
  constructor
  · rintro ⟨ahead, k, behind, hrank, hfound, hnone⟩
    obtain ⟨hstarts, hfind⟩ := Option.ite_none_right_eq_some.mp hfound
    obtain ⟨rfl, holdest⟩ := find_class_eq_some_iff.mp hfind
    refine ⟨hstarts, fun q hq => Nat.le_of_not_lt fun hlt => ?_, holdest⟩
    have habove := hnone _ ((mem_ranking_ahead hrank _).mpr hlt)
    rw [if_pos (startsClass_higher hstarts hlt), List.find?_eq_none] at habove
    exact habove q hq (beq_self_eq_true _)
  · rintro ⟨hstarts, hhighest, holdest⟩
    obtain ⟨ahead, behind, hrank⟩ := List.append_of_mem (mem_ranking e.kind.cls)
    refine ⟨ahead, _, behind, hrank, ?_, fun j hj => ?_⟩
    · rw [if_pos hstarts]
      exact find_class_eq_some_iff.mpr ⟨rfl, holdest⟩
    · have habove := (mem_ranking_ahead hrank j).mp hj
      have hnone : (p.queue.find? fun q => q.kind.cls == j) = none := by
        refine List.find?_eq_none.mpr fun q hq hqj => ?_
        have hle := hhighest q hq
        rw [beq_iff_eq.mp hqj] at hle
        omega
      rw [hnone, ite_self]

theorem candidate_mem {p : Port} {m : PartMode} {e : TxEntry} (h : p.candidate m = some e) : e ∈ p.queue := by
  obtain ⟨-, -, older, younger, hq, -⟩ := (candidate_eq_some_iff p m e).mp h
  simp [hq]

theorem candidate_of_queue_nil {p : Port} (m : PartMode) (h : p.queue = []) : p.candidate m = none := by
  refine Option.eq_none_iff_forall_ne_some.mpr fun e he => ?_
  have := candidate_mem he
  simp [h] at this

theorem mayStart_iff (p : Port) :
    p.mayStart = true ↔ (p.state = .idle ∨ (p.state = .receiving ∧ p.stuck = true)) ∧ p.closing = false := by
  simp [Port.mayStart]

theorem creditAllows_iff (cfg : ChannelSettings) (credit : Int) (k : TrafficClass) (slots : Nat) :
    creditAllows cfg credit k slots = true ↔
      if k = .safety then (slots : Int) - cfg.cmax ≤ credit else (slots : Int) ≤ credit := by
  unfold creditAllows
  split <;> exact decide_eq_true_iff

/-! ## Frames that leave an offer list for the queue (R64) -/

theorem firstOffered_mem {l : List OfferItem} {it : OfferItem} (h : firstOffered l = some it) : it ∈ l := by
  obtain ⟨k, -, hk⟩ := List.exists_of_findSome?_eq_some h
  exact List.mem_of_find?_eq_some hk

/-- What waits on a channel to be sent: in the transmit queue and on the offer list. -/
def State.waitingCount (s : State) (c : Chan) : Nat := (s.port c).queue.length + (s.offer c).length

theorem candidate_of_nothing_waiting {s : State} {c : Chan} (m : PartMode) (h : s.waitingCount c = 0) :
    (s.port c).candidate m = none :=
  candidate_of_queue_nil m (List.eq_nil_of_length_eq_zero (Nat.eq_zero_of_add_eq_zero_right h))

theorem acceptOffer_port (s : State) (c : Chan) (it : OfferItem) :
    (s.acceptOffer c it).port c = { s.port c with queue := (s.port c).queue ++ [it.frame] } := by
  unfold State.acceptOffer State.modEntryOf
  split <;> simp

theorem acceptOffer_offer (s : State) (c : Chan) (it : OfferItem) :
    (s.acceptOffer c it).offer c = (s.offer c).filter fun x => x.frame.ref != it.frame.ref := by
  unfold State.acceptOffer State.modEntryOf
  split <;> simp

/-- The unit of an accepted frame has the frame's entry QUEUED, and no other unit or entry changes. -/
theorem acceptOffer_unit (s : State) (c : Chan) (it : OfferItem) (u : UnitIx) :
    (s.acceptOffer c it).unit u = if it.frame.unit = some u then
      (s.unit u).modEntry it.frame.ref fun o => { o with placement := .queued } else s.unit u := by
  unfold State.acceptOffer State.modEntryOf
  split
  · rename_i v hv
    rw [State.modUnit_unit, hv]
    by_cases h : v = u
    · subst h; simp
    · simp [h]
  · rename_i hv
    simp [hv]

theorem acceptOffer_waitingCount_le {s : State} {c : Chan} {it : OfferItem} (h : it ∈ s.offer c) :
    (s.acceptOffer c it).waitingCount c ≤ s.waitingCount c := by
  have hlt : ((s.offer c).filter fun x => x.frame.ref != it.frame.ref).length < (s.offer c).length :=
    List.length_filter_lt_length_iff_exists.mpr ⟨it, h, by simp⟩
  simp only [State.waitingCount, acceptOffer_port, acceptOffer_offer, List.length_append, List.length_singleton]
  omega

/-- Whatever holds of a state and is kept as a frame of the list is accepted holds once a list has been offered. -/
theorem offerFrames_induct {c : Chan} {P : State → Prop}
    (step : ∀ s, ∀ it ∈ s.offer c, P s → P (s.acceptOffer c it)) (n : Nat) {s : State} (h : P s) :
    P (s.offerFrames c n) := by
  induction n generalizing s with
  | zero => exact h
  | succ n ih =>
    unfold State.offerFrames
    split
    · exact h
    · rename_i it hit
      split
      · exact ih (step s it (firstOffered_mem hit) h)
      · exact h

/-- Frames of the offer list, and no others, join the end of the queue. -/
theorem offerFrames_queue (s : State) (c : Chan) (n : Nat) :
    ∃ joined, ((s.offerFrames c n).port c).queue = (s.port c).queue ++ joined ∧
      ∀ q ∈ joined, ∃ it ∈ s.offer c, it.frame = q := by
  have h := offerFrames_induct (c := c) (n := n) (s := s)
    (P := fun t => (∀ it ∈ t.offer c, it ∈ s.offer c) ∧ ∃ joined, (t.port c).queue = (s.port c).queue ++ joined ∧
      ∀ q ∈ joined, ∃ it ∈ s.offer c, it.frame = q) ?_ ⟨fun _ => id, [], by simp⟩
  · exact h.2
  · rintro t it hit ⟨hoffer, joined, hqueue, hjoined⟩
    refine ⟨fun x hx => ?_, joined ++ [it.frame], ?_, fun q hq => ?_⟩
    · rw [acceptOffer_offer] at hx
      exact hoffer x (List.mem_filter.mp hx).1
    · simp [acceptOffer_port, hqueue]
    · rcases List.mem_append.mp hq with hq | hq
      · exact hjoined q hq
      · exact ⟨it, hoffer it hit, (List.mem_singleton.mp hq).symm⟩

theorem offerFrames_due (s : State) (c : Chan) (n : Nat) (u : UnitIx) :
    ((s.offerFrames c n).unit u).due = (s.unit u).due := by
  refine offerFrames_induct (P := fun t => (t.unit u).due = (s.unit u).due) (fun t it _ h => ?_) n rfl
  rw [acceptOffer_unit]
  split <;> exact h

theorem offerFrames_waitingCount_le (s : State) (c : Chan) (n : Nat) :
    (s.offerFrames c n).waitingCount c ≤ s.waitingCount c :=
  offerFrames_induct (P := fun t => t.waitingCount c ≤ s.waitingCount c)
    (fun _ _ hit h => Nat.le_trans (acceptOffer_waitingCount_le hit) h) n (Nat.le_refl _)

/-- Every entry of a unit with a message reference is as a condition says. -/
def UnitCtx.EntriesAre (x : UnitCtx) (ref : Nat) (said : OutEntry → Prop) : Prop :=
  ∀ out ∈ x.out, out.ref = ref → said out

/-- The entry changed is as the change makes it. -/
theorem modEntry_entriesAre (x : UnitCtx) (ref : Nat) {f : OutEntry → OutEntry} {said : OutEntry → Prop}
    (hf : ∀ o, said (f o)) : (x.modEntry ref f).EntriesAre ref said := by
  intro out hout href
  obtain ⟨o, -, rfl⟩ := List.mem_map.mp hout
  by_cases heq : o.ref = ref
  · rw [if_pos heq]
    exact hf o
  · rw [if_neg heq] at href
    exact absurd href heq

/-- A change of another entry, which keeps its reference, changes none with this one. -/
theorem modEntry_entriesAre_other {x : UnitCtx} {ref other : Nat} {f : OutEntry → OutEntry} {said : OutEntry → Prop}
    (hne : other ≠ ref) (hf : ∀ o, (f o).ref = o.ref) (h : x.EntriesAre ref said) :
    (x.modEntry other f).EntriesAre ref said := by
  intro out hout href
  obtain ⟨o, ho, rfl⟩ := List.mem_map.mp hout
  by_cases heq : o.ref = other
  · rw [if_pos heq, hf] at href
    exact absurd (heq.symm.trans href) hne
  · rw [if_neg heq] at href ⊢
    exact h o ho href

/-- An entry none of whose frames is offered stays as it was. -/
theorem offerFrames_entriesAre {s : State} {c : Chan} {u : UnitIx} {ref : Nat} {said : OutEntry → Prop} (n : Nat)
    (hoffer : ∀ it ∈ s.offer c, it.frame.ref ≠ ref) (h : (s.unit u).EntriesAre ref said) :
    ((s.offerFrames c n).unit u).EntriesAre ref said := by
  refine (offerFrames_induct (c := c)
    (P := fun t => (∀ it ∈ t.offer c, it.frame.ref ≠ ref) ∧ (t.unit u).EntriesAre ref said) ?_ n ⟨hoffer, h⟩).2
  rintro t it hit ⟨ho, hs⟩
  refine ⟨fun x hx => ?_, ?_⟩
  · rw [acceptOffer_offer] at hx
    exact ho x (List.mem_filter.mp hx).1
  · rw [acceptOffer_unit]
    split
    · exact modEntry_entriesAre_other (ho it hit) (fun _ => rfl) hs
    · exact hs

/-! ## A candidate removed unsent (R29, R69, R137) -/

theorem settleFrame_port (s : State) (e : TxEntry) (c : Chan) : (s.settleFrame e).port c = s.port c := by
  unfold State.settleFrame
  split
  · rfl
  · split <;> rfl

theorem settleFrame_offer (s : State) (e : TxEntry) (c : Chan) : (s.settleFrame e).offer c = s.offer c := by
  unfold State.settleFrame
  split
  · rfl
  · split <;> rfl

theorem settleFrame_unit_due {e : TxEntry} {u : UnitIx} {k : DueKind} (s : State) (hu : e.unit = some u)
    (hk : e.kind.due = some k) : ((s.settleFrame e).unit u).due = (s.unit u).due.unplace k e.ref := by
  simp [State.settleFrame, hu, hk, State.modDue]

theorem settleFrame_unit_entry {e : TxEntry} {u : UnitIx} (s : State) (hu : e.unit = some u)
    (hk : e.kind.due = none) : (s.settleFrame e).unit u =
      (s.unit u).modEntry e.ref fun o => { o with placement := .unplaced, repeatMark := false } := by
  simp [State.settleFrame, hu, hk]

theorem setPlaced_placedAt (d : DueSet) (k : DueKind) (v : Option Placed) : (d.setPlaced k v).placedAt k = v := by
  cases k <;> rfl

theorem setPlaced_has (d : DueSet) (j k : DueKind) (v : Option Placed) : (d.setPlaced k v).has j = d.has j := by
  cases k <;> rfl

/-- A kind unplaced under a reference is not placed under it. -/
theorem unplace_placedAt_ne {d : DueSet} {k : DueKind} {ref : Nat} {pl : Placed}
    (h : (d.unplace k ref).placedAt k = some pl) : pl.ref ≠ ref := by
  unfold DueSet.unplace at h
  split at h
  · simp [setPlaced_placedAt] at h
  · rename_i hne
    intro href
    simp [h, href] at hne

/-- The queue without the frames of a message. -/
def Port.without (p : Port) (ref : Nat) : Port := { p with queue := p.queue.filter fun q => q.ref != ref }

section removed
variable (s : State) (c : Chan) (e : TxEntry)

theorem removeUnsent_eq : s.removeUnsent c e =
    (((s.setPort c ((s.port c).without e.ref)).settleFrame e).offerFrames c (s.offer c).length) := by
  rw [State.removeUnsent, State.offerChannel, settleFrame_offer]
  rfl

theorem removeUnsent_undisturbed : Undisturbed (s.setPort c ((s.port c).without e.ref)) (s.removeUnsent c e) := by
  rw [removeUnsent_eq]
  exact (settleFrame_undisturbed _ e).trans (offerFrames_undisturbed _ c _)

theorem removeUnsent_queue : ∃ joined,
    ((s.removeUnsent c e).port c).queue = ((s.port c).without e.ref).queue ++ joined ∧
    ∀ q ∈ joined, ∃ it ∈ s.offer c, it.frame = q := by
  have h := offerFrames_queue ((s.setPort c ((s.port c).without e.ref)).settleFrame e) c (s.offer c).length
  rwa [settleFrame_port, settleFrame_offer, State.setPort_port_same, State.setPort_offer, ← removeUnsent_eq] at h

variable {s c e}

theorem removeUnsent_placedAt_ne {u : UnitIx} {k : DueKind} (hu : e.unit = some u) (hk : e.kind.due = some k)
    {pl : Placed} (h : ((s.removeUnsent c e).unit u).due.placedAt k = some pl) : pl.ref ≠ e.ref := by
  rw [removeUnsent_eq, offerFrames_due, settleFrame_unit_due _ hu hk] at h
  exact unplace_placedAt_ne h

theorem removeUnsent_entriesAre {u : UnitIx} (hu : e.unit = some u) (hk : e.kind.due = none)
    (hoffer : ∀ it ∈ s.offer c, it.frame.ref ≠ e.ref) :
    ((s.removeUnsent c e).unit u).EntriesAre e.ref fun out => out.placement = .unplaced ∧ out.repeatMark = false := by
  rw [removeUnsent_eq]
  refine offerFrames_entriesAre _ (by rwa [settleFrame_offer]) ?_
  rw [settleFrame_unit_entry _ hu hk]
  exact modEntry_entriesAre _ _ fun _ => ⟨rfl, rfl⟩

theorem removeUnsent_waitingCount_lt (h : e ∈ (s.port c).queue) :
    (s.removeUnsent c e).waitingCount c < s.waitingCount c := by
  have hle := offerFrames_waitingCount_le ((s.setPort c ((s.port c).without e.ref)).settleFrame e) c (s.offer c).length
  have hlt : ((s.port c).queue.filter fun q => q.ref != e.ref).length < (s.port c).queue.length :=
    List.length_filter_lt_length_iff_exists.mpr ⟨e, h, by simp⟩
  rw [← removeUnsent_eq] at hle
  refine Nat.lt_of_le_of_lt hle ?_
  simp only [State.waitingCount, settleFrame_port, settleFrame_offer, State.setPort_port_same, State.setPort_offer,
    Port.without]
  omega

end removed

/-! ## The test of the candidates (R28, R29) -/

section tested
variable {s : State} {c : Chan} {cfg : ChannelSettings} {e : TxEntry}

theorem testCandidates_of_no_candidate (n : Nat) (h : (s.port c).candidate s.xif.mode = none) :
    s.testCandidates c cfg n = s := by
  cases n <;> simp [State.testCandidates, h]

/-- The bound on the candidates tested does not matter once it reaches what waits on the channel. -/
theorem testCandidates_bound {n m : Nat} (hn : s.waitingCount c ≤ n) (hm : s.waitingCount c ≤ m) :
    s.testCandidates c cfg n = s.testCandidates c cfg m := by
  induction n generalizing s m with
  | zero =>
    have h := candidate_of_nothing_waiting s.xif.mode (Nat.le_zero.mp hn)
    rw [testCandidates_of_no_candidate _ h, testCandidates_of_no_candidate _ h]
  | succ n ih =>
    cases m with
    | zero =>
      have h := candidate_of_nothing_waiting s.xif.mode (Nat.le_zero.mp hm)
      rw [testCandidates_of_no_candidate _ h, testCandidates_of_no_candidate _ h]
    | succ m =>
      rw [State.testCandidates, State.testCandidates]
      cases he : (s.port c).candidate s.xif.mode with
      | none => rfl
      | some e =>
        have hlt := removeUnsent_waitingCount_lt (candidate_mem he)
        have next : (s.removeUnsent c e).testCandidates c cfg n = (s.removeUnsent c e).testCandidates c cfg m :=
          ih (by omega) (by omega)
        simp only [next]

theorem exec_frameStart (s : State) (c : Chan) : exec (.frameStart c) s = .next (s.tryStart c) := rfl

theorem tryStart_eq (hcfg : (s.port c).settings = some cfg) (hmay : (s.port c).mayStart = true) :
    s.tryStart c = (s.testCandidates c cfg (s.waitingCount c + 1)).settle := by
  simp [State.tryStart, State.waitingCount, hcfg, hmay]

theorem tryStart_of_not_mayStart (hmay : (s.port c).mayStart = false) : s.tryStart c = s := by
  unfold State.tryStart
  dsimp only
  split <;> simp [hmay]

theorem tryStart_of_no_candidate (hcfg : (s.port c).settings = some cfg) (hmay : (s.port c).mayStart = true)
    (h : (s.port c).candidate s.xif.mode = none) : s.tryStart c = s.settle := by
  rw [tryStart_eq hcfg hmay, testCandidates_of_no_candidate _ h]

variable (hcfg : (s.port c).settings = some cfg) (hmay : (s.port c).mayStart = true)
  (he : (s.port c).candidate s.xif.mode = some e)
include hcfg hmay he

theorem tryStart_of_not_allowed
    (hno : ¬ creditAllows cfg (s.port c).credit e.kind.cls (cfg.slots ((s.payloadNow e).getD []).length) = true) :
    s.tryStart c = s.settle := by
  rw [tryStart_eq hcfg hmay, State.testCandidates]
  simp [he, hno]

variable (hallowed : creditAllows cfg (s.port c).credit e.kind.cls (cfg.slots ((s.payloadNow e).getD []).length) = true)
include hallowed

theorem tryStart_of_startable {payload : List Byte} (hpay : s.payloadNow e = some payload)
    (hfree : s.frameHeld e.kind payload = false) : s.tryStart c = (s.startFrame c cfg e payload).settle := by
  rw [tryStart_eq hcfg hmay, State.testCandidates]
  simp only [he, hallowed, if_true]
  rw [hpay, Option.filter_some, if_pos (by rw [hfree]; rfl)]

/-- A candidate removed unsent leaves the port to test the next one. -/
theorem tryStart_of_removed (hnone : ((s.payloadNow e).filter fun p => !s.frameHeld e.kind p) = none) :
    s.tryStart c = (s.removeUnsent c e).tryStart c := by
  have hport := (removeUnsent_undisturbed s c e).port c
  rw [State.setPort_port_same] at hport
  have hcfg' : ((s.removeUnsent c e).port c).settings = some cfg := by rw [hport]; exact hcfg
  have hmay' : ((s.removeUnsent c e).port c).mayStart = true := by rw [hport]; exact hmay
  have hlt := removeUnsent_waitingCount_lt (candidate_mem he)
  rw [tryStart_eq hcfg hmay, tryStart_eq hcfg' hmay', State.testCandidates]
  simp only [he, hallowed, if_true, hnone]
  rw [testCandidates_bound (n := s.waitingCount c) (by omega) (Nat.le_succ _)]

end tested

/-! ## What a started frame takes of its unit (R14, R48, R69) -/

/-- The due set once a frame has taken its request: the first 16 workers of a PROMPT and the first 8 entries of an
ALARM_NOTE go with it (R14). -/
def DueSet.taken (d : DueSet) : DueKind → DueSet
  | .resync => { d with resync := false }
  | .poll => { d with poll := false }
  | .report => { d with report := false }
  | .prompt => { d with prompt := d.prompt.drop 16 }
  | .alarmNote => { d with alarm := d.alarm.drop 8 }

/-- The due set once a frame of a kind has started: REPORT_ONLY leaves it with every frame (R69). -/
def DueSet.carriedBy (d : DueSet) : Option DueKind → DueSet
  | none => { d with report := false }
  | some k => { d with report := false }.taken k

/-- What is left once a payload is built, or with nothing due, is the due set with its request taken. -/
theorem build_leaves_taken (d : DueSet) (k : DueKind) : ((d.build k).map Prod.snd).getD d = d.taken k := by
  have flag : ∀ (b : Bool) (r : List Byte × DueSet), (b = false → d = r.2) →
      ((if b then some r else none).map Prod.snd).getD d = r.2 := by
    intro b r h
    cases b
    · exact h rfl
    · rfl
  cases k with
  | resync => exact flag d.resync _ fun h => by rw [← h]
  | poll => exact flag d.poll _ fun h => by rw [← h]
  | report => exact flag d.report _ fun h => by rw [← h]
  | prompt =>
    simp only [DueSet.build, DueSet.taken]
    split
    · rename_i h; rw [h, List.drop_nil, ← h]; rfl
    · rfl
  | alarmNote =>
    simp only [DueSet.build, DueSet.taken]
    split
    · rename_i h; rw [h, List.drop_nil, ← h]; rfl
    · rfl

/-- A due-set kind is that of its frame's kind. -/
theorem frame_of_due {kind : FrameKind} {k : DueKind} (h : kind.due = some k) : k.frame = kind := by
  cases kind <;> simp [FrameKind.due] at h <;> subst h <;> rfl

theorem modDue_modDue (s : State) (u : UnitIx) (f g : DueSet → DueSet) :
    (s.modDue u f).modDue u g = s.modDue u fun d => g (f d) := by
  simp [State.modDue, State.modUnit, State.setUnit_setUnit]

theorem modDue_unit_same (s : State) (u : UnitIx) (f : DueSet → DueSet) :
    (s.modDue u f).unit u = { s.unit u with due := f (s.unit u).due } :=
  State.modUnit_unit_same ..

/-- What is left of a request is placed anew: on the frame's channel in a blind round, else where the unit is (R69,
R87). -/
def State.placeRest (s : State) (u : UnitIx) (k : DueKind) (c : Chan) : State :=
  if (s.unit u).due.has k then
    if (s.unit u).reach = .unreachable then s.placeDue u k c else s.dueSet u k
  else s

theorem placeRest_undisturbed (s : State) (u : UnitIx) (k : DueKind) (c : Chan) :
    Undisturbed s (s.placeRest u k c) := by
  unfold State.placeRest
  split
  · split
    · exact placeDue_undisturbed s u k c
    · exact dueSet_undisturbed s u k
  · exact .refl s

theorem mem_joinList (it : OfferItem) (l : List OfferItem) : it ∈ joinList it l := by
  induction l with
  | nil => exact List.mem_singleton_self it
  | cons x xs ih =>
    unfold joinList
    split
    · exact List.mem_cons_self
    · exact List.mem_cons_of_mem _ ih

/-- A request placed on a channel has its frame on the offer list there, under the reference noted (R69). -/
theorem placeDue_placed {s : State} {u : UnitIx} {k : DueKind} (c : Chan) (hhas : (s.unit u).due.has k = true)
    (hfree : (s.unit u).due.placedAt k = none) :
    ∃ it ∈ (s.placeDue u k c).offer c, it.frame.kind = k.frame ∧ it.frame.unit = some u ∧
      ((s.placeDue u k c).unit u).due.placedAt k = some { chan := c, ref := it.frame.ref } := by
  have heq : s.placeDue u k c =
      (s.bumpRef.modDue u fun d => d.setPlaced k (some { chan := c, ref := s.ule.nextRef })).join c
      { kind := k.frame, unit := some u, ref := s.ule.nextRef, attempt := 0, payload := [], started := false } := by
    simp [State.placeDue, hhas, hfree]
  rw [heq, State.join, State.setOffer_offer_same, State.setOffer_unit, modDue_unit_same]
  exact ⟨_, mem_joinList _ _, rfl, rfl, setPlaced_placedAt _ _ _⟩

section started
variable {s : State} {c : Chan} {e : TxEntry} {u : UnitIx}

theorem startedFor_of_no_unit (h : e.unit = none) : s.startedFor c e = s := by
  simp [State.startedFor, h]

/-- A frame of an outstanding entry takes REPORT_ONLY and sets the entry ON_AIR. -/
theorem startedFor_of_entry (hu : e.unit = some u) (hk : e.kind.due = none) :
    s.startedFor c e = (s.modDue u fun d => d.carriedBy none).modUnit u fun x =>
      x.modEntry e.ref fun o => { o with placement := .onAir, everOnAir := true } := by
  simp only [State.startedFor, hu, hk]
  rfl

/-- A due-set frame takes REPORT_ONLY and its request, its kind is not placed any more, and the rest is placed anew. -/
theorem startedFor_of_due {k : DueKind} (hu : e.unit = some u) (hk : e.kind.due = some k) :
    s.startedFor c e = (s.modDue u fun d => (d.carriedBy (some k)).setPlaced k none).placeRest u k c := by
  have take : ∀ t : State, t.takeDue u k c = (t.modDue u fun d => (d.taken k).setPlaced k none).placeRest u k c := by
    intro t
    simp only [State.takeDue, build_leaves_taken]
    rfl
  by_cases hreport : k = .report
  · subst hreport
    simp only [State.startedFor, hu, hk, modDue_modDue]
    rw [State.placeRest, modDue_unit_same, setPlaced_has, if_neg (by simp [DueSet.carriedBy, DueSet.taken, DueSet.has])]
    rfl
  · have hstart : s.startedFor c e = (s.modDue u fun d => { d with report := false }).takeDue u k c := by
      simp only [State.startedFor, hu, hk]
    rw [hstart, take, modDue_modDue]
    rfl

theorem startedFor_undisturbed (hu : e.unit = some u) :
    Undisturbed (s.modDue u fun d => d.carriedBy e.kind.due) (s.startedFor c e) := by
  cases hk : e.kind.due with
  | none =>
    rw [startedFor_of_entry hu hk]
    exact modUnit_undisturbed _ u fun x => modEntry_same x _ _
  | some k =>
    rw [startedFor_of_due hu hk]
    refine .trans ?_ (placeRest_undisturbed _ u k c)
    rw [← modDue_modDue s u (fun d => d.carriedBy (some k)) fun d => d.setPlaced k none]
    exact modDue_undisturbed _ u fun d => setPlaced_same d k none

theorem startedFor_entriesAre (hu : e.unit = some u) (hk : e.kind.due = none) :
    ((s.startedFor c e).unit u).EntriesAre e.ref fun out => out.placement = .onAir ∧ out.everOnAir = true := by
  rw [startedFor_of_entry hu hk, State.modUnit_unit_same]
  exact modEntry_entriesAre _ _ fun _ => ⟨rfl, rfl⟩

theorem startedFor_due_of_entry (hu : e.unit = some u) (hk : e.kind.due = none) :
    ((s.startedFor c e).unit u).due = (s.unit u).due.carriedBy e.kind.due := by
  rw [startedFor_of_entry hu hk, State.modUnit_unit_same, modDue_unit_same, hk]
  rfl

/-- With nothing left of its request, the kind is not placed any more. -/
theorem startedFor_due_of_whole {k : DueKind} (hu : e.unit = some u) (hk : e.kind.due = some k)
    (hleft : ((s.unit u).due.carriedBy e.kind.due).has k = false) :
    ((s.startedFor c e).unit u).due = ((s.unit u).due.carriedBy e.kind.due).setPlaced k none := by
  rw [hk] at hleft ⊢
  rw [startedFor_of_due hu hk, State.placeRest, modDue_unit_same, if_neg (by simp [setPlaced_has, hleft]),
    modDue_unit_same]

/-- With workers left, the kind is placed anew on the current channel of a REACHABLE unit. -/
theorem startedFor_due_of_rest {k : DueKind} {d : Chan} (hu : e.unit = some u) (hk : e.kind.due = some k)
    (hleft : ((s.unit u).due.carriedBy e.kind.due).has k = true) (hreach : (s.unit u).reach = .reachable)
    (hcur : (s.unit u).current = some d) :
    ∃ it ∈ (s.startedFor c e).offer d, it.frame.kind = e.kind ∧ it.frame.unit = some u ∧
      ((s.startedFor c e).unit u).due.placedAt k = some { chan := d, ref := it.frame.ref } := by
  rw [hk] at hleft
  let t := s.modDue u fun d => (d.carriedBy (some k)).setPlaced k none
  have hunit : t.unit u = { s.unit u with due := ((s.unit u).due.carriedBy (some k)).setPlaced k none } :=
    modDue_unit_same ..
  have hhas : (t.unit u).due.has k = true := by rw [hunit]; exact (setPlaced_has ..).trans hleft
  have hplace : t.placeRest u k c = t.placeDue u k d := by
    simp [State.placeRest, State.dueSet, hunit, hreach, hcur, setPlaced_has, hleft]
  rw [startedFor_of_due hu hk, hplace, ← frame_of_due hk]
  exact placeDue_placed d hhas (by rw [hunit]; exact setPlaced_placedAt ..)

end started

/-! ## The payload and the header of this moment (R2, R14) -/

/-- What a due-set frame carries: nothing but its header for a flag, up to 16 workers of a PROMPT, and up to 8 entries
of an ALARM_NOTE; none when nothing is due (R14). -/
def DueSet.carried (d : DueSet) : DueKind → Option (List Byte)
  | .resync => if d.resync then some [] else none
  | .poll => if d.poll then some [] else none
  | .report => if d.report then some [] else none
  | .prompt =>
    if d.prompt.take 16 = [] then none
    else some (byteOf (d.prompt.take 16).length :: (d.prompt.take 16).map fun w => byteOf w.val)
  | .alarmNote =>
    if d.alarm.take 8 = [] then none
    else some (byteOf (d.alarm.take 8).length :: (d.alarm.take 8).flatMap fun n => [byteOf n.1.val, byteOf n.2.num])

theorem build_gives_carried (d : DueSet) (k : DueKind) : (d.build k).map Prod.fst = d.carried k := by
  cases k with
  | resync | poll | report => simp only [DueSet.build, DueSet.carried]; split <;> rfl
  | prompt | alarmNote =>
    simp only [DueSet.build, DueSet.carried]
    split
    · rename_i h; simp [h]
    · rename_i h; rw [if_neg (by simpa using h)]; rfl

/-- A sequenced frame or a bulletin carries the payload its entry holds. -/
theorem payloadNow_of_entry {s : State} {e : TxEntry} (h : e.kind.due = none) : s.payloadNow e = some e.payload := by
  cases hu : e.unit <;> simp only [State.payloadNow, hu, h]

/-- A frame that is held is a PERMIT_STEP, whose payload is the one its entry holds (R137). -/
theorem frameHeld_payloadNow {s : State} {e : TxEntry} {payload : List Byte} (hpay : s.payloadNow e = some payload) :
    s.frameHeld e.kind payload = s.frameHeld e.kind e.payload := by
  by_cases h : e.kind = .permitStep
  · rw [payloadNow_of_entry (by rw [h]; rfl)] at hpay
    rw [Option.some.inj hpay]
  · simp [State.frameHeld, energisedSection, h]

/-- Settles O51: the statement's words for the payload, the credit and the held frame are those of the test of a
candidate, which then waits, is removed unsent or starts. -/
theorem frameStart : Obligations.FrameStart := by
  refine ⟨?_, fun p m e => ?_, fun s c cfg hcfg => ?_⟩
  · simp [FrameKind.code, FrameKind.sequenced, FrameKind.cls, TrafficClass.code]
  · rw [candidate_eq_some_iff, startsClass_iff]
  intro p
  refine ⟨mayStart_iff p, fun h => ?_, fun h hnone => ?_, fun e hmay he => ?_⟩
  · rw [exec_frameStart, tryStart_of_not_mayStart h]
  · rw [exec_frameStart, tryStart_of_no_candidate hcfg h hnone]
  intro given cost allowed
  have hgiven : given = s.payloadNow e := by
    simp only [given, State.payloadNow]
    generalize e.unit = unit
    generalize e.kind.due = due
    cases unit with
    | none => rfl
    | some u =>
      cases due with
      | none => rfl
      | some k => exact (build_gives_carried _ k).symm
  have hallowed : allowed ↔
      creditAllows cfg p.credit e.kind.cls (cfg.slots ((s.payloadNow e).getD []).length) = true := by
    rw [← hgiven]
    exact (creditAllows_iff ..).symm
  refine ⟨fun hno => ?_, ?_⟩
  · rw [exec_frameStart, tryStart_of_not_allowed hcfg hmay he fun h => hno (hallowed.mpr h)]
  intro held
  have hheld : held ↔ s.frameHeld e.kind e.payload = true := (frameHeld_iff ..).symm
  refine ⟨fun hleaves hpaid => ?_, fun payload hpay hfree hpaid => ?_⟩
  · have hnone : ((s.payloadNow e).filter fun q => !s.frameHeld e.kind q) = none := by
      cases hp : s.payloadNow e with
      | none => rfl
      | some payload =>
        have hh : held := hleaves.resolve_left (by rw [hgiven, hp]; exact Option.some_ne_none _)
        rw [hheld, ← frameHeld_payloadNow hp] at hh
        simp [Option.filter_some, hh]
    obtain ⟨joined, hqueue, hjoined⟩ := removeUnsent_queue s c e
    refine ⟨s.removeUnsent c e, joined, removeUnsent_undisturbed s c e, hqueue, hjoined, ?_, ?_, ?_⟩
    · exact fun u k hu hk pl => removeUnsent_placedAt_ne hu hk
    · exact fun u => removeUnsent_entriesAre
    · rw [exec_frameStart, exec_frameStart, tryStart_of_removed hcfg hmay he (hallowed.mp hpaid) hnone]
  · intro base header q carried
    rw [hgiven] at hpay
    have hunheld : s.frameHeld e.kind payload = false := by
      rw [frameHeld_payloadNow hpay]
      exact Bool.eq_false_iff.mpr fun h => hfree (hheld.mpr h)
    have hcarried : carried = fun d => d.carriedBy e.kind.due := by
      funext d
      simp only [carried]
      generalize e.kind.due = due
      cases due with
      | none => rfl
      | some k => cases k <;> rfl
    have hheader : s.headerOf c e payload.length = header := by
      simp only [header, State.headerOf]
      generalize e.unit = unit
      cases unit <;> rfl
    have hport : (s.port c).transmit cfg e (frameBytes header payload) payload.length s.xif.clock = q := by
      simp only [q, cost, hgiven, hpay, Option.getD_some]
      rfl
    have hstart : s.startFrame c cfg e payload = ((s.setPort c q).startedFor c e).writeChannelStatus c := by
      rw [← hport, ← hheader]
      rfl
    refine ⟨(s.setPort c q).startedFor c e, ?_, ?_⟩
    · cases hu : e.unit with
      | none => exact startedFor_of_no_unit hu
      | some u =>
        rw [hcarried]
        dsimp only
        exact ⟨startedFor_undisturbed hu, startedFor_entriesAre hu, startedFor_due_of_entry hu,
          fun k => startedFor_due_of_whole (s := s.setPort c q) hu,
          fun k d => startedFor_due_of_rest (s := s.setPort c q) hu⟩
    · rw [exec_frameStart, tryStart_of_startable hcfg hmay he (hallowed.mp hpaid) hpay hunheld, hstart]

end Sys2Proof.Machine
end

section
/-! PROOFS. Work orders: the start of sending, the order verbs, the confirmation of an order's messages and its expiry
(chapter 5). -/

namespace Sys2Proof.Machine

open Sys2Proof.Safety

/-! ## Contexts -/

theorem setOrder_setOrder (s : State) (o : OrderIx) (x y : OrderCtx) :
    (s.setOrder o x).setOrder o y = s.setOrder o y := by
  simp [State.setOrder]

theorem setOrder_order_eq (s : State) (o : OrderIx) : s.setOrder o (s.order o) = s := by
  simp [State.setOrder, State.order]

theorem advanceTo_order (s : State) (t : Nat) (o : OrderIx) : (s.advanceTo t).order o = s.order o := by
  unfold State.advanceTo
  split <;> rfl

/-! ## Expiry (R100) -/

theorem waits_iff (x : OrderCtx) : x.waits = true ↔ x.state = .queued ∨ x.state = .held := by
  simp [OrderCtx.waits]

theorem expire_eq (s : State) (o : OrderIx) :
    s.expire o = ((s.setOrder o { s.order o with state := .expired }).raise
      (.expired o (s.order o).unit (s.order o).state)).writeOrder o := rfl

theorem exec_orderExpiry_of_waits {s : State} {o : OrderIx} {t : Nat} (hd : (s.order o).deadline = some t)
    (hw : (s.order o).waits = true) :
    exec (.orderExpiry o) s =
      .next (((s.advanceTo (t * usPerSecond)).expire o).startSending (s.order o).unit).settle := by
  change Host.Outcome.next (s.expireOrder o) = _
  simp only [State.expireOrder, hd, hw, if_true]

theorem exec_orderExpiry_of_not_waits {s : State} {o : OrderIx} (hw : (s.order o).waits ≠ true) :
    exec (.orderExpiry o) s = .next s := by
  change Host.Outcome.next (s.expireOrder o) = _
  unfold State.expireOrder
  dsimp only
  split
  · exact congrArg _ (if_neg hw)
  · rfl

/-- Settles O60: only an order that waits expires, and then as `State.expire` says on the clock moved to the deadline. -/
theorem orderExpires : Obligations.OrderExpires := by
  intro s o t0 x s' hd
  refine ⟨fun hw => ?_, fun hq hh => ?_⟩
  · rw [exec_orderExpiry_of_waits hd ((waits_iff x).mpr hw), expire_eq, advanceTo_order]
    rfl
  · refine exec_orderExpiry_of_not_waits fun hw => ?_
    exact ((waits_iff x).mp hw).elim hq hh

/-! ## Verbs that have run (R182) -/

section ran
variable {c : Instr} {s : State} {r : PageRun} {p : VerbOutcome × State}

theorem verbAnswers_of_exec {o : VerbOutcome} {t : State} {said : State → Prop}
    (hx : exec c s = .next (p.2.settle.finishEntry r p.1)) (hp : p = (o, t)) (hs : said t) :
    VerbAnswers c s r o said := by
  subst hp
  exact ⟨t, hs, hx⟩

theorem verbRefused_of_exec {o : VerbOutcome}
    (hx : exec c s = .next (p.2.settle.finishEntry r p.1)) (hp : p = (o, s)) : VerbRefused c s r o := by
  subst hp
  exact hx

end ran

section posted
variable {s : State} {r : PageRun} {e : PostingEntry} {o : OrderIx} (hi : indexIn 256 e.index = some o)
include hi

theorem exec_orderPost (h : Posted s 9 r e) :
    let p := s.postOrder o (s.orderHost o) (s.orderBody o (s.orderHost o).bodyLen)
    exec .orderPost s = .next (p.2.settle.finishEntry r p.1) := by
  refine congrArg Host.Outcome.next (takeVerb_posted h rfl ?_)
  rw [atIndex_some hi, readingFields_plain h.2.2 h.busOn]

theorem exec_orderWithdraw (h : Posted s 10 r e) :
    let p := s.withdrawOrder o
    exec .orderWithdraw s = .next (p.2.settle.finishEntry r p.1) := by
  refine congrArg Host.Outcome.next (takeVerb_posted h rfl ?_)
  rw [atIndex_some hi, answered]

theorem exec_bulletin (h : Posted s 11 r e) :
    let len := (s.orderHost o).bodyLen
    let p := s.postBulletin o e.group e.mask len (s.orderBody o len)
    exec .bulletin s = .next (p.2.settle.finishEntry r p.1) := by
  refine congrArg Host.Outcome.next (takeVerb_posted h rfl ?_)
  rw [atIndex_some hi, readingFields_plain h.2.2 h.busOn]

end posted

/-! ## ORDER_WITHDRAW (R101) -/

theorem withdrawOrder_of_waits {s : State} {o : OrderIx} (hw : (s.order o).state = .queued ∨ (s.order o).state = .held) :
    s.withdrawOrder o = (.done, (s.setOrder o { s.order o with state := .withdrawn }).writeOrder o) := by
  unfold State.withdrawOrder
  rcases hw with h | h <;> rw [h] <;> rfl

theorem withdrawOrder_of_sending {s : State} {o : OrderIx} (h : (s.order o).state = .sending) :
    s.withdrawOrder o = (.done, (s.enterWithdraw o .withdrawn).writeOrder o) := by
  unfold State.withdrawOrder
  rw [h]

theorem withdrawOrder_of_other {s : State} {o : OrderIx} (hq : (s.order o).state ≠ .queued)
    (hh : (s.order o).state ≠ .held) (hs : (s.order o).state ≠ .sending) : s.withdrawOrder o = (.state, s) := by
  unfold State.withdrawOrder
  split <;> simp_all

theorem enterWithdraw_of_sending {s : State} {o : OrderIx} (h : (s.order o).state = .sending)
    (hc : (s.order o).cancelling = none) (e : EndState) :
    s.enterWithdraw o e =
      (s.setOrder o { s.order o with cancelling := some e, cancel := .due }).tellDue (s.order o).unit :=
  if_pos ⟨h, hc⟩

theorem enterWithdraw_of_cancelling {s : State} {o : OrderIx} (hc : (s.order o).cancelling ≠ none) (e : EndState) :
    s.enterWithdraw o e = s :=
  if_neg fun h => hc h.2

/-! ## Confirmations (R97, R102) -/

section confirmed
variable {s : State} {o : OrderIx}

/-- No confirmation of an order that is not SENDING has an effect. -/
theorem confirm_order_of_not_sending (h : (s.order o).state ≠ .sending) (k : Nat) (how : Confirmation) :
    s.confirm (.orderSegment o k) how = s ∧ s.confirm (.orderCancel o) how = s := by
  cases how with
  | acknowledged => exact ⟨if_neg h, if_neg h⟩
  | unsent =>
    simp only [State.confirm, State.orderUnsentSegment, State.orderUnsentCancel, State.modOrder, if_neg h,
      setOrder_order_eq, and_self]
  | dropped => exact ⟨rfl, rfl⟩

theorem confirm_unsent (h : (s.order o).state = .sending) (k : Nat) :
    s.confirm (.orderSegment o k) .unsent =
      s.setOrder o { s.order o with nextSeg := min (s.order o).nextSeg k } ∧
    s.confirm (.orderCancel o) .unsent = s.setOrder o { s.order o with cancel := .due } := by
  simp only [State.confirm, State.orderUnsentSegment, State.orderUnsentCancel, State.modOrder, if_pos h, and_self]

theorem confirm_segment_of_not_last (h : (s.order o).state = .sending) (k : Nat)
    (hl : ¬ ((s.order o).segCount = some ((s.order o).acked + 1) ∧ (s.order o).cancelling = none)) :
    s.confirm (.orderSegment o k) .acknowledged =
      (s.setOrder o { s.order o with acked := (s.order o).acked + 1 }).writeOrder o := by
  rw [eq_comm (b := some _)] at hl
  simp only [State.confirm, State.orderAckSegment, if_pos h, if_neg hl]

theorem confirm_segment_of_last (h : (s.order o).state = .sending) (k : Nat)
    (hl : (s.order o).segCount = some ((s.order o).acked + 1) ∧ (s.order o).cancelling = none) :
    s.confirm (.orderSegment o k) .acknowledged =
      (s.setOrder o { s.order o with acked := (s.order o).acked + 1 }).deliver o := by
  rw [eq_comm (b := some _)] at hl
  simp only [State.confirm, State.orderAckSegment, if_pos h, if_pos hl]

theorem confirm_cancel_acknowledged (h : (s.order o).state = .sending) :
    ((s.order o).cancelling = some .withdrawn → s.confirm (.orderCancel o) .acknowledged =
      (((s.setOrder o { s.order o with state := .withdrawn }).raise
        (.withdrawn o (s.order o).unit (s.order o).acked)).writeOrder o).startSending (s.order o).unit) ∧
    ((s.order o).cancelling = some .failed → s.confirm (.orderCancel o) .acknowledged =
      (((s.setOrder o { s.order o with state := .failed, failure := .permitGone }).raise
        (.failed o (s.order o).unit .permitGone)).writeOrder o).startSending (s.order o).unit) := by
  constructor <;> intro hc <;> simp only [State.confirm, State.orderAckCancel, if_pos h, hc]

end confirmed

/-- The delivery of an order with no early reply, from the context its last acknowledgement leaves (R97). -/
theorem deliver_of_no_reply (s : State) (o : OrderIx) {x : OrderCtx} (hr : x.earlyReply = none) {st : OrderState}
    (hst : st = if x.replyWanted then .delivered else .accepted) :
    (s.setOrder o x).deliver o =
      (((s.setOrder o { x with state := st }).raise (.delivered o x.unit st)).writeOrder o).startSending x.unit := by
  subst hst
  unfold State.deliver
  simp only [State.setOrder_order_same, hr, setOrder_setOrder]
  cases x.replyWanted <;> rfl

/-- The delivery of an order whose reply came early: the reply is applied in the same change (R97, R99, log 29). -/
theorem deliver_of_reply (s : State) (o : OrderIx) {x : OrderCtx} {reply : Reply} (hr : x.earlyReply = some reply) :
    (s.setOrder o x).deliver o =
      ((((s.setOrder o (x.applyReply reply)).raise (.delivered o x.unit reply.decision.orderState)).raise
        (.replied o reply)).writeOrder o).startSending x.unit := by
  unfold State.deliver
  simp only [State.setOrder_order_same, hr, setOrder_setOrder]
  rfl

/-- Settles O27: the withdrawal by the order's state, and each message of a SENDING order by its confirmation. -/
theorem orderWithdraw : Obligations.OrderWithdraw := by
  refine ⟨fun s r e o h hi => ?_, fun _ _ _ => rfl, ?_⟩
  · have hx := exec_orderWithdraw hi h
    refine ⟨fun hw => ?_, fun hs hc => ?_, fun hs hc => ?_, fun hq hh hs => ?_⟩
    · exact verbAnswers_of_exec hx (withdrawOrder_of_waits hw) rfl
    · exact verbAnswers_of_exec hx (withdrawOrder_of_sending hs) (by rw [enterWithdraw_of_sending hs hc])
    · exact verbAnswers_of_exec hx (withdrawOrder_of_sending hs) (by rw [enterWithdraw_of_cancelling hc])
    · exact verbRefused_of_exec hx (withdrawOrder_of_other hq hh hs)
  intro s o k z segment cancel counted ended last
  refine ⟨rfl, rfl, fun h how => confirm_order_of_not_sending h k how, fun h => ?_⟩
  obtain ⟨hsegment, hcancel⟩ := confirm_unsent h k
  obtain ⟨hwithdrawn, hfailed⟩ := confirm_cancel_acknowledged h
  refine ⟨confirm_segment_of_not_last h k, fun hl hr hw => ?_, fun hl hr hw => ?_, ?_, hsegment, hwithdrawn, hfailed,
    hcancel⟩
  · exact (confirm_segment_of_last h k hl).trans (deliver_of_no_reply s o (x := counted) hr (by simp [counted, hw]))
  · exact (confirm_segment_of_last h k hl).trans (deliver_of_no_reply s o (x := counted) hr (by simp [counted, hw]))
  · intro reply hl hr entered
    have hentered : reply.decision.orderState = entered := by
      simp only [entered]
      cases reply.decision <;> rfl
    rw [← hentered]
    exact (confirm_segment_of_last h k hl).trans (deliver_of_reply s o (x := counted) hr)

/-! ## Queue order (R93) -/

theorem before_iff (x y : OrderCtx) :
    x.before y = true ↔ y.priority < x.priority ∨ (y.priority = x.priority ∧ x.stamp < y.stamp) := by
  simp [OrderCtx.before, eq_comm (a := y.priority)]

theorem not_before_self (x : OrderCtx) : ¬ x.before x = true := by
  rw [before_iff]
  omega

theorem before_trans {x y z : OrderCtx} (h : x.before y = true) (k : y.before z = true) : x.before z = true := by
  rw [before_iff] at *
  omega

/-- A list of orders in queue order: none stands behind one it comes before. -/
def State.InQueueOrder (s : State) (l : List OrderIx) : Prop :=
  l.Pairwise fun p q => ¬ (s.order q).before (s.order p) = true

theorem mem_insertOrder {s : State} {o q : OrderIx} {l : List OrderIx} : q ∈ s.insertOrder o l ↔ q = o ∨ q ∈ l := by
  induction l with
  | nil => simp [State.insertOrder]
  | cons p l ih =>
    unfold State.insertOrder
    split <;> simp only [List.mem_cons, ih, or_left_comm]

theorem insertOrder_inQueueOrder {s : State} (o : OrderIx) {l : List OrderIx} (h : s.InQueueOrder l) :
    s.InQueueOrder (s.insertOrder o l) := by
  induction l with
  | nil => exact List.pairwise_singleton ..
  | cons p l ih =>
    obtain ⟨hp, hl⟩ := List.pairwise_cons.mp h
    unfold State.insertOrder
    split
    next hop =>
      refine List.pairwise_cons.mpr ⟨fun q hq hqo => ?_, h⟩
      have hqp := before_trans hqo hop
      rcases List.mem_cons.mp hq with rfl | hql
      · exact not_before_self _ hqp
      · exact hp q hql hqp
    next hop =>
      refine List.pairwise_cons.mpr ⟨fun q hq => ?_, ih hl⟩
      rcases mem_insertOrder.mp hq with rfl | hql
      · exact hop
      · exact hp q hql

/-- The order queue holds the live orders of the unit, in queue order (R93). -/
theorem orderQueue_spec (s : State) (a : Nat) :
    (∀ q, q ∈ s.orderQueue a ↔ (s.order q).state.live = true ∧ (s.order q).unit = a) ∧
    s.InQueueOrder (s.orderQueue a) := by
  have hfold : ∀ (l queue : List OrderIx), s.InQueueOrder queue →
      (∀ q, q ∈ l.foldl (fun queue o => s.insertOrder o queue) queue ↔ q ∈ l ∨ q ∈ queue) ∧
      s.InQueueOrder (l.foldl (fun queue o => s.insertOrder o queue) queue) := by
    intro l
    induction l with
    | nil => exact fun queue h => ⟨fun q => by simp, h⟩
    | cons o l ih =>
      intro queue h
      obtain ⟨hmem, hord⟩ := ih _ (insertOrder_inQueueOrder o h)
      refine ⟨fun q => ?_, hord⟩
      rw [List.foldl_cons, hmem, mem_insertOrder, List.mem_cons, or_left_comm, or_assoc]
  unfold State.orderQueue
  rw [← List.foldl_filter]
  obtain ⟨hmem, hord⟩ := hfold ((List.finRange 256).filter fun o =>
    (s.order o).state.live && (s.order o).unit == a) [] List.Pairwise.nil
  exact ⟨fun q => by simp [hmem], hord⟩

/-! ## The start of sending (R95) -/

theorem anyEnabled_iff (s : State) : s.anyEnabled = true ↔ ∃ c, (s.port c).enabled = true := by
  simp [State.anyEnabled]

theorem sendingOrder_eq_none_iff (s : State) (a : Nat) :
    s.sendingOrder a = none ↔ ¬ ∃ q, (s.order q).state = .sending ∧ (s.order q).unit = a := by
  simp [State.sendingOrder, List.find?_eq_none]

/-- An order that is QUEUED for the unit with address `a`. -/
def State.QueuedFor (s : State) (a : Nat) (q : OrderIx) : Prop := (s.order q).state = .queued ∧ (s.order q).unit = a

/-- The first QUEUED order of a unit's queue, HELD ones passed over (R95). -/
def State.firstQueued (s : State) (a : Nat) : Option OrderIx :=
  (s.orderQueue a).find? fun o => (s.order o).state == .queued

theorem startSending_eq (s : State) (a : Nat) :
    s.startSending a =
      if s.anyEnabled && (s.sendingOrder a).isNone then ((s.firstQueued a).map s.enterSending).getD s else s := by
  unfold State.startSending State.firstQueued
  generalize List.find? _ (s.orderQueue a) = q
  cases q <;> rfl

theorem mem_orderQueue_of_queuedFor {s : State} {a : Nat} {q : OrderIx} (h : s.QueuedFor a q) : q ∈ s.orderQueue a :=
  ((orderQueue_spec s a).1 q).mpr ⟨by rw [h.1]; rfl, h.2⟩

theorem queuedFor_of_firstQueued {s : State} {a : Nat} {q : OrderIx} (h : s.firstQueued a = some q) :
    s.QueuedFor a q :=
  ⟨by simpa using List.find?_some h, (((orderQueue_spec s a).1 q).mp (List.mem_of_find?_eq_some h)).2⟩

/-- The QUEUED order that comes before every other one is the first of the queue. -/
theorem firstQueued_of_before {s : State} {a : Nat} {o : OrderIx} (ho : s.QueuedFor a o)
    (hfirst : ∀ q, s.QueuedFor a q → q ≠ o → (s.order o).before (s.order q) = true) : s.firstQueued a = some o := by
  cases hf : s.firstQueued a with
  | none => exact absurd (beq_iff_eq.mpr ho.1) (List.find?_eq_none.mp hf o (mem_orderQueue_of_queuedFor ho))
  | some q =>
    refine congrArg some (Decidable.byContradiction fun hne => ?_)
    obtain ⟨_, ahead, behind, hqueue, hahead⟩ := List.find?_eq_some_iff_append.mp hf
    have ho' := mem_orderQueue_of_queuedFor ho
    have hord := (orderQueue_spec s a).2
    rw [hqueue] at ho' hord
    rcases List.mem_append.mp ho' with h | h
    · simpa [ho.1] using hahead o h
    · have hbehind := (List.mem_cons.mp h).resolve_left (Ne.symm hne)
      exact (List.pairwise_cons.mp (List.pairwise_append.mp hord).2.1).1 o hbehind
        (hfirst q (queuedFor_of_firstQueued hf) hne)

theorem enterSending_eq (s : State) (o : OrderIx) :
    let z := s.order o
    let size := s.xif.commonLimit - 2
    s.enterSending o = ((s.setOrder o { z with
      state := .sending, deadline := none, segSize := some size,
      segCount := some (if z.bodyLen = 0 then 1 else divUp z.bodyLen size), nextSeg := 0, acked := 0 }).tellDue
        z.unit).writeOrder o := by
  unfold State.enterSending State.modOrder
  simp only [State.setOrder_order_same]

/-- Whether the start of sending looks for an order at all (R95). -/
theorem mayStartSending_iff (s : State) (a : Nat) :
    (s.anyEnabled && (s.sendingOrder a).isNone) = true ↔
      (∃ c, (s.port c).enabled = true) ∧ ¬ ∃ q, (s.order q).state = .sending ∧ (s.order q).unit = a := by
  rw [Bool.and_eq_true, Option.isNone_iff_eq_none, anyEnabled_iff, sendingOrder_eq_none_iff]

theorem startSending_of_nothing_to_send {s : State} {a : Nat}
    (hno : (∀ c, (s.port c).enabled = false) ∨ (∃ q, (s.order q).state = .sending ∧ (s.order q).unit = a) ∨
      ∀ q, ¬ s.QueuedFor a q) : s.startSending a = s := by
  rw [startSending_eq]
  split
  next hmay =>
    obtain ⟨⟨c, hc⟩, hsends⟩ := (mayStartSending_iff s a).mp hmay
    rcases hno with hoff | hs | hnone
    · exact absurd hc (by simp [hoff c])
    · exact absurd hs hsends
    · cases hf : s.firstQueued a with
      | none => rfl
      | some q => exact absurd (queuedFor_of_firstQueued hf) (hnone q)
  next => rfl

theorem startSending_of_first {s : State} {a : Nat} {o : OrderIx} (hport : ∃ c, (s.port c).enabled = true)
    (hsends : ¬ ∃ q, (s.order q).state = .sending ∧ (s.order q).unit = a) (ho : s.QueuedFor a o)
    (hfirst : ∀ q, s.QueuedFor a q → q ≠ o → (s.order o).before (s.order q) = true) :
    let z := s.order o
    let size := s.xif.commonLimit - 2
    s.startSending a = ((s.setOrder o { z with
      state := .sending, deadline := none, segSize := some size,
      segCount := some (if z.bodyLen = 0 then 1 else divUp z.bodyLen size), nextSeg := 0, acked := 0 }).tellDue
        a).writeOrder o := by
  rw [startSending_eq, if_pos ((mayStartSending_iff s a).mpr ⟨hport, hsends⟩), firstQueued_of_before ho hfirst, ← ho.2]
  exact enterSending_eq s o

/-! ## ORDER_POST (R94) -/

theorem orderHost_malformed_iff (h : OrderHost) :
    h.malformed = true ↔ 480 < h.bodyLen ∨ 3 < h.priority ∨ 1440 < h.expiry ∨ ∃ n, h.permit = some n ∧ 63 < n := by
  unfold OrderHost.malformed
  cases h.permit <;> simp [or_assoc]

theorem permitRefuses_iff (s : State) (h : OrderHost) :
    s.permitRefuses h = true ↔ ∃ n, h.permit = some n ∧ s.permitStateOf n ∈
      [PermitState.free, PermitState.restoring, PermitState.closed, PermitState.cancelled] := by
  have hstate : ∀ st : PermitState, st.refusesOrders = true ↔ st ∈
      [PermitState.free, PermitState.restoring, PermitState.closed, PermitState.cancelled] := by
    intro st; cases st <;> decide
  unfold State.permitRefuses
  cases h.permit <;> simp only [hstate, Option.some.injEq, exists_eq_left', reduceCtorEq, false_and, exists_false,
    Bool.false_eq_true]

theorem heldByPermit_iff (s : State) (h : OrderHost) :
    s.heldByPermit h = true ↔ ∃ n, h.permit = some n ∧ s.permitStateOf n ≠ .holding := by
  unfold State.heldByPermit
  cases h.permit <;> simp

section tests
variable {s : State} {o : OrderIx} {h : OrderHost} (body : List Byte)

theorem postOrder_of_live (hlive : (s.order o).state.live = true) : s.postOrder o h body = (.state, s) :=
  if_pos hlive

variable (hfree : ¬ (s.order o).state.live = true)
include hfree

theorem postOrder_of_malformed (hm : h.malformed = true) : s.postOrder o h body = (.malformed, s) := by
  rw [State.postOrder, if_neg hfree, if_pos hm]

variable (hm : ¬ h.malformed = true)
include hm

theorem postOrder_of_unknown (hu : (s.unitOf h.address).isNone = true) :
    s.postOrder o h body = (.notRegistered, s) := by
  rw [State.postOrder, if_neg hfree, if_neg hm, if_pos hu]

variable (hu : ¬ (s.unitOf h.address).isNone = true)
include hu

theorem postOrder_of_permitRefuses (hg : s.permitRefuses h = true) : s.postOrder o h body = (.state, s) := by
  rw [State.postOrder, if_neg hfree, if_neg hm, if_neg hu, if_pos hg]

variable (hg : ¬ s.permitRefuses h = true)
include hg

theorem postOrder_of_full (hf : 16 ≤ (s.orderQueue h.address).length) : s.postOrder o h body = (.capacity, s) := by
  rw [State.postOrder, if_neg hfree, if_neg hm, if_neg hu, if_neg hg, queueMost, if_pos hf]

variable (hf : ¬ 16 ≤ (s.orderQueue h.address).length)
include hf

/-- An order that passes the five tests is set up, stamped and recorded, and a QUEUED one may start. -/
theorem postOrder_accepted :
    let held := s.heldByPermit h
    let t := (s.setOrder o (h.context body held s.odp.stamp s.second)).bumpStamp.writeOrder o
    s.postOrder o h body = (.done, if held then t else t.startSending h.address) := by
  rw [State.postOrder, if_neg hfree, if_neg hm, if_neg hu, if_neg hg, queueMost, if_neg hf]

end tests

/-- Settles O26: the tests in their order, and the first QUEUED order as the one that comes before every other. -/
theorem orderPost : Obligations.OrderPost := by
  refine ⟨?_, ?_⟩
  · intro s r e o hpost hi h malformed unknown gone full held x taken free
    have hx := exec_orderPost hi hpost
    have hfree : free ↔ ¬ (s.order o).state.live = true := Bool.eq_false_iff
    have hmal : malformed ↔ h.malformed = true := (orderHost_malformed_iff h).symm
    have hunk : unknown ↔ (s.unitOf h.address).isNone = true := Option.isNone_iff_eq_none.trans unitOf_eq_none |>.symm
    have hgone : gone ↔ s.permitRefuses h = true := (permitRefuses_iff s h).symm
    have hheld : held ↔ s.heldByPermit h = true := (heldByPermit_iff s h).symm
    rw [hfree, hmal, hunk, hgone, hheld]
    refine ⟨?_, ?_, ?_, ?_, ?_, ?_, ?_⟩
    · exact fun hl => verbRefused_of_exec hx (postOrder_of_live _ (Decidable.not_not.mp hl))
    · exact fun hl hm => verbRefused_of_exec hx (postOrder_of_malformed _ hl hm)
    · exact fun hl hm hu => verbRefused_of_exec hx (postOrder_of_unknown _ hl hm hu)
    · exact fun hl hm hu hg => verbRefused_of_exec hx (postOrder_of_permitRefuses _ hl hm hu hg)
    · exact fun hl hm hu hg hf => verbRefused_of_exec hx (postOrder_of_full _ hl hm hu hg hf)
    · intro hl hm hu hg hf hh
      refine verbAnswers_of_exec hx (postOrder_accepted _ hl hm hu hg hf) ?_
      rw [if_pos hh, hh]
      rfl
    · intro hl hm hu hg hf hh
      refine verbAnswers_of_exec hx (postOrder_accepted _ hl hm hu hg hf) ?_
      rw [if_neg hh, Bool.eq_false_iff.mpr hh]
      exact ⟨rfl, startSending_moved _ _⟩
  · intro s a sends waits
    refine ⟨startSending_of_nothing_to_send, fun o hport hsends ho hfirst => ?_⟩
    refine startSending_of_first hport hsends ho fun q hq hne => ?_
    exact (before_iff _ _).mpr (hfirst q hq hne)

/-! ## The channels of a bulletin (R11, R104) -/

theorem mem_members_iff {s : State} {g m : Nat} {u : UnitIx} :
    u ∈ s.members g m ↔ (s.unit u).registered = true ∧ (g = 0 ∨ (s.unit u).address / 2 ^ m = g / 2 ^ m) := by
  simp [State.members, inGroup]

theorem members_nodup (s : State) (g m : Nat) : (s.members g m).Nodup := (List.nodup_finRange 96).filter _

theorem mem_enabledChans_iff {s : State} {c : Chan} : c ∈ s.enabledChans ↔ (s.port c).enabled = true := by
  simp [State.enabledChans]

theorem enabledChans_isEmpty_iff (s : State) : s.enabledChans.isEmpty = true ↔ ∀ c, (s.port c).enabled = false := by
  simp [State.enabledChans]

/-- An enabled channel on which a member of the group is REACHABLE (R104). -/
def State.ReachesMember (s : State) (g m : Nat) (c : Chan) : Prop :=
  (s.port c).enabled = true ∧ ∃ u ∈ s.members g m, (s.unit u).reach = .reachable ∧ (s.unit u).current = some c

theorem bulletinChans_eq (s : State) (g m : Nat) : ∃ there : List Chan,
    (∀ c, c ∈ there ↔ s.ReachesMember g m c) ∧ there.Nodup ∧
    s.bulletinChans g m = if there = [] then s.enabledChans else there := by
  refine ⟨s.enabledChans.filter fun c =>
    (s.members g m).any fun u => (s.unit u).reach == .reachable && (s.unit u).current == some c, fun c => ?_, ?_, ?_⟩
  · simp [State.ReachesMember, mem_enabledChans_iff]
  · exact ((List.nodup_finRange 4).filter _).filter _
  · simp only [State.bulletinChans, List.isEmpty_iff]

theorem mem_bulletinChans_iff {s : State} {g m : Nat} {c : Chan} :
    c ∈ s.bulletinChans g m ↔
      s.ReachesMember g m c ∨ ((s.port c).enabled = true ∧ ∀ d, ¬ s.ReachesMember g m d) := by
  obtain ⟨there, hmem, _, heq⟩ := bulletinChans_eq s g m
  rw [heq]
  split
  next hnil =>
    have hnone : ∀ d, ¬ s.ReachesMember g m d := fun d hd => by simpa [hnil] using (hmem d).mpr hd
    simp [mem_enabledChans_iff, hnone]
  next hsome =>
    obtain ⟨d, hd⟩ := List.exists_mem_of_ne_nil there hsome
    rw [hmem]
    exact ⟨.inl, fun h => h.resolve_right fun hno => hno.2 d ((hmem d).mp hd)⟩

theorem bulletinChans_nodup (s : State) (g m : Nat) : (s.bulletinChans g m).Nodup := by
  obtain ⟨there, _, hnodup, heq⟩ := bulletinChans_eq s g m
  rw [heq]
  split
  · exact (List.nodup_finRange 4).filter _
  · exact hnodup

/-! ## The frames of a bulletin (R64, R104) -/

/-- What stands on an offer list for a bulletin. -/
def bulletinItem (payload : List Byte) (moment ref : Nat) : OfferItem where
  moment := moment
  frame := { kind := .bulletin, unit := none, ref := ref, attempt := 0, started := false, payload := payload }

/-- A frame without a unit joins behind every other (log 10). -/
theorem joinList_bulletin (payload : List Byte) (moment ref : Nat) (l : List OfferItem) :
    joinList (bulletinItem payload moment ref) l = l ++ [bulletinItem payload moment ref] := by
  have hrank : ∀ e : TxEntry, ¬ 96 < e.unitRank := by
    intro e
    unfold TxEntry.unitRank
    cases e.unit with
    | none => exact Nat.lt_irrefl 96
    | some u => exact Nat.not_lt.mpr (Nat.le_of_lt u.isLt)
  induction l with
  | nil => rfl
  | cons x l ih =>
    unfold joinList
    rw [if_neg fun h => hrank x.frame h.2, ih]
    rfl

theorem placeBulletin_eq (s : State) (payload : List Byte) (c : Chan) :
    s.placeBulletin payload c =
      s.bumpRef.setOffer c (s.offer c ++ [bulletinItem payload s.ule.moment s.ule.nextRef]) := by
  rw [← joinList_bulletin]
  rfl

/-- `v` is `s` with a bulletin's frame at the end of the offer list of each of some channels, under a reference
not given before. -/
structure BulletinPlaced (s v : State) (payload : List Byte) (chans : List Chan) : Prop where
  rest : v = { s with offers := v.offers, ule := { s.ule with nextRef := v.ule.nextRef } }
  other : ∀ c, c ∉ chans → v.offer c = s.offer c
  placed : ∀ c ∈ chans, ∃ ref, s.ule.nextRef ≤ ref ∧ v.offer c = s.offer c ++ [bulletinItem payload s.ule.moment ref]

theorem placeBulletins_placed (payload : List Byte) {chans : List Chan} (h : chans.Nodup) (s : State) :
    BulletinPlaced s (chans.foldl (fun s c => s.placeBulletin payload c) s) payload chans := by
  induction chans generalizing s with
  | nil => exact ⟨rfl, fun _ _ => rfl, fun c hc => absurd hc List.not_mem_nil⟩
  | cons c chans ih =>
    obtain ⟨hc, hchans⟩ := List.nodup_cons.mp h
    rw [List.foldl_cons, placeBulletin_eq]
    have hstep := ih hchans (s.bumpRef.setOffer c (s.offer c ++ [bulletinItem payload s.ule.moment s.ule.nextRef]))
    generalize List.foldl _ _ chans = v at hstep
    refine ⟨hstep.rest, fun d hd => ?_, fun d hd => ?_⟩
    · rw [hstep.other d (List.not_mem_of_not_mem_cons hd),
        State.setOffer_offer_other _ (Ne.symm (List.ne_of_not_mem_cons hd))]
      rfl
    · rcases List.mem_cons.mp hd with rfl | hd
      · exact ⟨s.ule.nextRef, Nat.le_refl _, by rw [hstep.other d hc, State.setOffer_offer_same]⟩
      · obtain ⟨ref, href, hoffer⟩ := hstep.placed d hd
        refine ⟨ref, Nat.le_of_succ_le href, ?_⟩
        rw [hoffer, State.setOffer_offer_other _ (by rintro rfl; exact hc hd)]
        rfl

/-! ## BULLETIN (R104) -/

theorem bulletinsFull_iff (s : State) (chans : List Chan) :
    (chans.any fun c => decide (bulletinMost ≤ s.bulletinsWaiting c)) = true ↔
      ∃ c ∈ chans, 8 ≤ s.bulletinsWaiting c := by
  simp only [List.any_eq_true, decide_eq_true_eq]
  rfl

section tests
variable {s : State} {o : OrderIx} {g m len : Nat} (body : List Byte)

theorem postBulletin_of_live (hlive : (s.order o).state.live = true) : s.postBulletin o g m len body = (.state, s) :=
  if_pos hlive

variable (hfree : ¬ (s.order o).state.live = true)
include hfree

theorem postBulletin_of_malformed (hm : 1023 < g ∨ 9 < m ∨ 62 < len ∨ s.xif.commonLimit < len + 2) :
    s.postBulletin o g m len body = (.malformed, s) := by
  simp only [State.postBulletin, if_neg hfree, if_pos hm]

variable (hm : ¬ (1023 < g ∨ 9 < m ∨ 62 < len ∨ s.xif.commonLimit < len + 2))
include hm

theorem postBulletin_of_silent (hs : s.enabledChans.isEmpty = true) :
    s.postBulletin o g m len body = (.channelState, s) := by
  simp only [State.postBulletin, if_neg hfree, if_neg hm, if_pos hs]

variable (hs : ¬ s.enabledChans.isEmpty = true)
include hs

theorem postBulletin_of_full (hf : ∃ c ∈ s.bulletinChans g m, 8 ≤ s.bulletinsWaiting c) :
    s.postBulletin o g m len body = (.capacity, s) := by
  rw [← bulletinsFull_iff] at hf
  simp only [State.postBulletin, if_neg hfree, if_neg hm, if_neg hs, if_pos hf]

/-- A bulletin that passes the four tests: its frames stand on the channels' lists, and its context holds what R104 names
alone (log 49). -/
theorem postBulletin_accepted (hf : ¬ ∃ c ∈ s.bulletinChans g m, 8 ≤ s.bulletinsWaiting c) :
    ∃ v, BulletinPlaced s v (bulletinPayload g m body) (s.bulletinChans g m) ∧
      s.postBulletin o g m len body = (.done,
        (((v.setOrder o { OrderCtx.free with state := .withdrawn, stamp := s.odp.stamp, bodyLen := len }).bumpStamp).raise
          (.bulletin o (s.bulletinChans g m) (s.members g m).length)).writeOrder o) := by
  rw [← bulletinsFull_iff] at hf
  have hplaced := placeBulletins_placed (bulletinPayload g m body) (bulletinChans_nodup s g m) s
  refine ⟨_, hplaced, ?_⟩
  have hodp := congrArg State.odp hplaced.rest
  simp only [State.postBulletin, if_neg hfree, if_neg hm, if_neg hs, if_neg hf, hodp]

end tests

/-- Settles O28: the tests in their order, and the frames placed one channel after another, each behind the frames its
list holds. -/
theorem bulletin : Obligations.Bulletin := by
  intro s r e o hpost hi len member reached chosen free malformed silent full x
  have hx := exec_bulletin hi hpost
  have hfree : free ↔ ¬ (s.order o).state.live = true := Bool.eq_false_iff
  have hsilent : silent ↔ s.enabledChans.isEmpty = true := (enabledChans_isEmpty_iff s).symm
  have hmember : ∀ u, u ∈ s.members e.group e.mask ↔ member u := fun u => mem_members_iff
  have hreached : ∀ c, s.ReachesMember e.group e.mask c ↔ reached c := by
    intro c
    simp only [State.ReachesMember, hmember, reached]
  have hchosen : ∀ c, c ∈ s.bulletinChans e.group e.mask ↔ chosen c := by
    intro c
    simp only [mem_bulletinChans_iff, hreached, chosen]
  have hfull : full ↔ ∃ c ∈ s.bulletinChans e.group e.mask, 8 ≤ s.bulletinsWaiting c := by
    simp only [hchosen, full]
  rw [hfree, hsilent, hfull]
  refine ⟨?_, ?_, ?_, ?_, ?_⟩
  · exact fun hl => verbRefused_of_exec hx (postBulletin_of_live _ (Decidable.not_not.mp hl))
  · exact fun hl hm => verbRefused_of_exec hx (postBulletin_of_malformed _ hl hm)
  · exact fun hl hm hs => verbRefused_of_exec hx (postBulletin_of_silent _ hl hm hs)
  · exact fun hl hm hs hf => verbRefused_of_exec hx (postBulletin_of_full _ hl hm hs hf)
  · intro hl hm hs hf
    obtain ⟨v, hplaced, haccepted⟩ := postBulletin_accepted (s.orderBody o len) hl hm hs hf
    refine verbAnswers_of_exec hx haccepted ⟨(v.setOrder o x).bumpStamp, s.bulletinChans e.group e.mask,
      s.members e.group e.mask, hchosen, hmember, members_nodup .., rfl, ?_, fun c hc => ?_, fun c hc => ?_⟩
    · rw [hplaced.rest]
      rfl
    · exact hplaced.other c fun h => hc ((hchosen c).mp h)
    · exact hplaced.placed c ((hchosen c).mpr hc)

end Sys2Proof.Machine
end
